-- ==== Sys2Proof/Word.lean ====
section
/-!
DEFINITION. The word types of the LS7366R protocol encoder (00_scope.md R8, R9): every value is unsigned,
bits are numbered from 0, the least significant bit.
-/
namespace Sys2Proof

/-- A byte: a command byte, a payload byte, an operand byte, a byte register (R8: CMD_WIDTH, BYTE_REG_WIDTH). -/
abbrev Byte := BitVec 8

/-- A wide register's value at the block's interface, and a speed in hertz (R8: VALUE_WIDTH, SPEED_WIDTH). -/
abbrev Word := BitVec 32

/-- The request word REQ (R8: REQ_WIDTH; R85). -/
abbrev ReqWord := BitVec 10

/-- The operand bundle ARG (R8: ARG_WIDTH; R86). -/
abbrev ArgBundle := BitVec 48

/-- The identity of a chip-select line (R8: CS_LINE). The spec gives it no width: a plain name. -/
abbrev LineId := Nat

/-- The Transfer Width W (R21): 1, 2, 3 or 4 bytes; "It has no other value". -/
inductive Width where
  | one | two | three | four
  deriving DecidableEq, Repr

end Sys2Proof
end

