-- ==== Sys2Proof/Syntax.lean ====
section
/-!
DEFINITION. The sixteen operations of the block (30_encoding.md R83, R87, Table 30-4), the fields of a command byte
(R80 to R82), and a request as the host presents it (R85).
-/
namespace Sys2Proof

/-- The instruction class, bits 7:6 of a command byte (R81). -/
inductive OpClass where
  | clear | read | write | load
  deriving DecidableEq, Repr

/-- A target register of the chip, bits 5:3 of a command byte (R40, R82). -/
inductive Target where
  | mdr0 | mdr1 | dtr | cntr | otr | str
  deriving DecidableEq, Repr

/-- KIND, bits 9:8 of a request word (R85, Table 30-3). -/
inductive Kind where
  | bus | init | speed | reserved
  deriving DecidableEq, Repr

/-- A request: the request word REQ and the operand bundle ARG (R85, R86). -/
structure Request where
  req : ReqWord
  arg : ArgBundle
  deriving DecidableEq, Repr

/-- The operations, one constructor per row of the opcode table (Table 30-4), with the operands R86 gives each, in the
order A0, A1, ... of the operand bundle. -/
inductive Instr where
  /-- INIT, `initialize()` (R110). -/
  | init
  /-- CLR_MDR0, `clear(MDR0)` (R121). -/
  | clrMdr0
  /-- CLR_MDR1, `clear(MDR1)` (R122). -/
  | clrMdr1
  /-- CLR_CNTR, `clear(CNTR)` (R123). -/
  | clrCntr
  /-- CLR_STR, `clear(STR)` (R124). -/
  | clrStr
  /-- RD_MDR0, `read_byte(MDR0)` (R131). -/
  | rdMdr0
  /-- RD_MDR1, `read_byte(MDR1)` (R132). -/
  | rdMdr1
  /-- RD_STR, `read_byte(STR)` (R133). -/
  | rdStr
  /-- RD_CNTR, `read_wide(CNTR)` (R135). -/
  | rdCntr
  /-- RD_OTR, `read_wide(OTR)` (R136). -/
  | rdOtr
  /-- WR_MDR0, `write_mdr0(q, c, i, s, f)` (R146). -/
  | wrMdr0 (quad count index sync filter : Byte)
  /-- WR_MDR1, `write_mdr1(bm, ce, idx, cmp, bw, cy)` (R147). -/
  | wrMdr1 (mode enable idx cmp bw cy : Byte)
  /-- WR_DTR, `write_dtr(value)` (R148). -/
  | wrDtr (value : Word)
  /-- LD_CNTR, `load(CNTR)` (R161). -/
  | ldCntr
  /-- LD_OTR, `load(OTR)` (R162). -/
  | ldOtr
  /-- SET_SPEED, `set_speed(hz)` (R165). -/
  | setSpeed (hz : Word)
  deriving DecidableEq, Repr

end Sys2Proof
end

