-- ==== Sys2Proof/Decode.lean ====
section
/-!
DEFINITION. The two levels of encoding (30_encoding.md): the command byte (R80 to R84) and the request word with its
operand bundle (R85, R86); decoding, total on every request (R87, R98), and the encoder, its inverse.
-/
namespace Sys2Proof

/-- CLASS codes (R81). -/
def OpClass.code : OpClass → BitVec 2
  | .clear => 0b00
  | .read => 0b01
  | .write => 0b10
  | .load => 0b11

/-- Selector codes (R82). -/
def Target.code : Target → BitVec 3
  | .mdr0 => 0b001
  | .mdr1 => 0b010
  | .dtr => 0b011
  | .cntr => 0b100
  | .otr => 0b101
  | .str => 0b110

/-- KIND codes (R85, Table 30-3). -/
def Kind.code : Kind → BitVec 2
  | .bus => 0b00
  | .init => 0b01
  | .speed => 0b10
  | .reserved => 0b11

/-- `cmd = (CLASS, SEL, 0b000)` (R80, R83, R84). -/
def commandByte (c : OpClass) (t : Target) : BitVec 8 := c.code ++ t.code ++ 0b000#3

/-- The request word of a bus operation: KIND 0b00 and the command byte (R85). -/
def busReq (c : OpClass) (t : Target) : ReqWord := Kind.bus.code ++ commandByte c t

/-- The request word of INIT (R110). -/
def initReq : ReqWord := Kind.init.code ++ 0x00#8

/-- The request word of SET_SPEED (R165). -/
def speedReq : ReqWord := Kind.speed.code ++ 0x00#8

/-- The request word of an operation: Encode of R87, Table 30-4. -/
def Instr.req : Instr → ReqWord
  | .init => initReq
  | .clrMdr0 => busReq .clear .mdr0
  | .clrMdr1 => busReq .clear .mdr1
  | .clrCntr => busReq .clear .cntr
  | .clrStr => busReq .clear .str
  | .rdMdr0 => busReq .read .mdr0
  | .rdMdr1 => busReq .read .mdr1
  | .rdStr => busReq .read .str
  | .rdCntr => busReq .read .cntr
  | .rdOtr => busReq .read .otr
  | .wrMdr0 _ _ _ _ _ => busReq .write .mdr0
  | .wrMdr1 _ _ _ _ _ _ => busReq .write .mdr1
  | .wrDtr _ => busReq .write .dtr
  | .ldCntr => busReq .load .cntr
  | .ldOtr => busReq .load .otr
  | .setSpeed _ => speedReq

/-- The A-byte of number `k` of an operand bundle (R86). -/
def argByte (arg : ArgBundle) (k : Nat) : Byte := arg.extractLsb' (8 * k) 8

/-- ARG[31:0] (R86). -/
def argWord (arg : ArgBundle) : Word := arg.extractLsb' 0 32

/-- The operand bundle of an operation (R86). The bits an operation ignores are encoded as 0 (log entry 9). -/
def Instr.arg : Instr → ArgBundle
  | .wrMdr0 q c x y f => 0#8 ++ f ++ y ++ x ++ c ++ q
  | .wrMdr1 m e x c b y => y ++ b ++ c ++ x ++ e ++ m
  | .wrDtr v => 0#16 ++ v
  | .setSpeed hz => 0#16 ++ hz
  | .init | .clrMdr0 | .clrMdr1 | .clrCntr | .clrStr | .rdMdr0 | .rdMdr1 | .rdStr | .rdCntr | .rdOtr
  | .ldCntr | .ldOtr => 0

/-- Why a request word spells no operation (R97, R98). Every one of them is the verdict ILLEGAL_REQUEST; the cause is the
decoder's own note and is recorded nowhere (R171: detail none). -/
inductive Illegal where
  /-- KIND 0b11, any CMD (R98). -/
  | reservedKind
  /-- KIND 0b01 or 0b10 with CMD other than 0x00 (R98). -/
  | nonzeroCmd
  /-- KIND 0b00 and a command byte whose ZERO field is not 0b000 (R97 a). -/
  | nonzeroZeroField
  /-- KIND 0b00 and selector 0b000 or 0b111, which name no register (R97 b). -/
  | noRegister
  /-- KIND 0b00 and a (class, register) pair that is no operation (R97 c). -/
  | unassignedPair
  deriving DecidableEq, Repr

/-- The class a code names (R81). -/
def OpClass.ofCode (c : BitVec 2) : OpClass :=
  if c = 0b00#2 then .clear else if c = 0b01#2 then .read else if c = 0b10#2 then .write else .load

/-- The register a selector names, if any (R82, R63). -/
def Target.ofCode (c : BitVec 3) : Option Target :=
  if c = 0b001#3 then some .mdr0
  else if c = 0b010#3 then some .mdr1
  else if c = 0b011#3 then some .dtr
  else if c = 0b100#3 then some .cntr
  else if c = 0b101#3 then some .otr
  else if c = 0b110#3 then some .str
  else none

/-- The kind a code names (R85). -/
def Kind.ofCode (c : BitVec 2) : Kind :=
  if c = 0b00#2 then .bus else if c = 0b01#2 then .init else if c = 0b10#2 then .speed else .reserved

/-- The operation of a (class, register) pair with its operands from ARG (R42 Table 20-2, R83, R86). -/
def decodePair (c : OpClass) (t : Target) (arg : ArgBundle) : Except Illegal Instr :=
  match c, t with
  | .clear, .mdr0 => .ok .clrMdr0
  | .clear, .mdr1 => .ok .clrMdr1
  | .clear, .cntr => .ok .clrCntr
  | .clear, .str => .ok .clrStr
  | .read, .mdr0 => .ok .rdMdr0
  | .read, .mdr1 => .ok .rdMdr1
  | .read, .str => .ok .rdStr
  | .read, .cntr => .ok .rdCntr
  | .read, .otr => .ok .rdOtr
  | .write, .mdr0 =>
    .ok (.wrMdr0 (argByte arg 0) (argByte arg 1) (argByte arg 2) (argByte arg 3) (argByte arg 4))
  | .write, .mdr1 =>
    .ok (.wrMdr1 (argByte arg 0) (argByte arg 1) (argByte arg 2) (argByte arg 3) (argByte arg 4) (argByte arg 5))
  | .write, .dtr => .ok (.wrDtr (argWord arg))
  | .load, .cntr => .ok .ldCntr
  | .load, .otr => .ok .ldOtr
  | .clear, .dtr | .clear, .otr | .read, .dtr | .write, .cntr | .write, .otr | .write, .str
  | .load, .mdr0 | .load, .mdr1 | .load, .dtr | .load, .str => .error .unassignedPair

/-- The operation a command byte spells (R80, R97). -/
def decodeCommand (cmd : Byte) (arg : ArgBundle) : Except Illegal Instr :=
  if cmd.extractLsb' 0 3 ≠ 0b000#3 then .error .nonzeroZeroField
  else match Target.ofCode (cmd.extractLsb' 3 3) with
    | none => .error .noRegister
    | some t => decodePair (OpClass.ofCode (cmd.extractLsb' 6 2)) t arg

/-- Decode (R87): total on every request word, an operation or the verdict ILLEGAL_REQUEST. -/
def decode (r : Request) : Except Illegal Instr :=
  let cmd := r.req.extractLsb' 0 8
  match Kind.ofCode (r.req.extractLsb' 8 2) with
  | .init => if cmd = 0x00#8 then .ok .init else .error .nonzeroCmd
  | .speed => if cmd = 0x00#8 then .ok (.setSpeed (argWord r.arg)) else .error .nonzeroCmd
  | .reserved => .error .reservedKind
  | .bus => decodeCommand cmd r.arg

/-- Encode (R87, R86). -/
def encode (i : Instr) : Request := ⟨i.req, i.arg⟩

/-- The 14 operations of Table 30-2; INIT and SET_SPEED are not bus operations (R172). -/
def Instr.isBus : Instr → Bool
  | .init | .setSpeed _ => false
  | .clrMdr0 | .clrMdr1 | .clrCntr | .clrStr | .rdMdr0 | .rdMdr1 | .rdStr | .rdCntr | .rdOtr
  | .wrMdr0 _ _ _ _ _ | .wrMdr1 _ _ _ _ _ _ | .wrDtr _ | .ldCntr | .ldOtr => true

/-- The request whose bits are `w`: REQ is bits 9:0 (the opcode table's numbering), ARG the 48 bits that count on from it;
of `w` only the low `nbits` bits are taken, the bits above are 0 (log entry 8). -/
def requestOfBits (nbits w : Nat) : Request :=
  let bits := w % 2 ^ nbits
  ⟨BitVec.ofNat 10 bits, BitVec.ofNat 48 (bits / 2 ^ 10)⟩

/-- What the decoder reads from a table row's bits. -/
def decodeTableWord (nbits w : Nat) : Option Instr := (decode (requestOfBits nbits w)).toOption

end Sys2Proof
end

