-- ==== Sys2Proof/Config.lean ====
section
/-!
DEFINITION. What one construction of the block fixes (00_scope.md R8, Table 00-3) and the free values.
The OPEN parameters and the chip's replies are opaque: no proof can see a value of them.
-/
namespace Sys2Proof

/-- CS_LINE, the chip-select line this block is constructed with: an OPEN parameter (R8, R36; decision D33). -/
opaque Config.csLine : LineId

/-- DEFAULT_SPEED_HZ, the speed preference a block is constructed with: an OPEN parameter (R8, R23; decision D15). -/
opaque Config.defaultSpeedHz : Word

/-- The chip's reply in the n-th byte exchange of the block on a line: a free draw, "any of the 256 byte values, chosen
independently for each exchange and under no law" (R71). Log entry 3. -/
opaque Config.draw : LineId → Nat → Byte

/-- DUMMY, the byte sent while reading (R8, R95). -/
def Config.dummy : Byte := 0x00

/-- W_RESET, the Transfer Width before any WR_MDR1 (R8, R22). -/
def Config.resetWidth : Width := .four

end Sys2Proof
end

