-- ==== Sys2Proof/Machine/Operands.lean ====
section
/-!
DEFINITION. The operand forms: the field masks and assembly of the two mode-register payloads (30_encoding.md R88 to R93),
the byte-mode code (R91), and the byte order of a wide value (20_memory.md R53, R54).
-/
namespace Sys2Proof

/-- The number of bytes W stands for (R21). -/
def Width.bytes : Width → Nat
  | .one => 1
  | .two => 2
  | .three => 3
  | .four => 4

end Sys2Proof

namespace Sys2Proof.Machine

/-- WidthOf (R91): code 0b00 gives 4 bytes, 0b01 gives 3, 0b10 gives 2, 0b11 gives 1. -/
def widthOf (code : BitVec 2) : Width :=
  if code = 0b00#2 then .four
  else if code = 0b01#2 then .three
  else if code = 0b10#2 then .two
  else .one

/-- The detail a FIELD_RANGE fault records (R171, R174): the operand index (its A-byte number, 0 to 5) and its value. -/
structure FieldDetail where
  index : Nat
  value : Byte
  deriving DecidableEq, Repr

/-- InField (R93): no bit of `v` is set outside `mask`. -/
def inField (v mask : Byte) : Bool := v &&& ~~~mask == 0

/-- The first operand, in A-byte order from index `k` on, that has a bit set outside its mask (R93, R174). -/
def firstOutside : Nat → List (Byte × Byte) → Option FieldDetail
  | _, [] => none
  | k, (v, mask) :: rest => if inField v mask then firstOutside (k + 1) rest else some ⟨k, v⟩

/-- The operands of WR_MDR0 A0 to A4 with their masks (R88, Table 30-5; R174). -/
def mdr0Fields (quad count index sync filter : Byte) : List (Byte × Byte) :=
  [(quad, 0x03), (count, 0x0C), (index, 0x30), (sync, 0x40), (filter, 0x80)]

/-- The operands of WR_MDR1 A0 to A5 with their masks (R90, Table 30-7; R174). -/
def mdr1Fields (mode enable idx cmp bw cy : Byte) : List (Byte × Byte) :=
  [(mode, 0x03), (enable, 0x04), (idx, 0x10), (cmp, 0x20), (bw, 0x40), (cy, 0x80)]

/-- AssembleMDR0 (R93): the OR of the operands once each has passed its range check. -/
def assembleMdr0 (quad count index sync filter : Byte) : Except FieldDetail Byte :=
  match firstOutside 0 (mdr0Fields quad count index sync filter) with
  | some d => .error d
  | none => .ok (quad ||| count ||| index ||| sync ||| filter)

/-- AssembleMDR1 (R93). Payload bit 3 has no operand and is always 0 (R90). -/
def assembleMdr1 (mode enable idx cmp bw cy : Byte) : Except FieldDetail Byte :=
  match firstOutside 0 (mdr1Fields mode enable idx cmp bw cy) with
  | some d => .error d
  | none => .ok (mode ||| enable ||| idx ||| cmp ||| bw ||| cy)

/-- Serialize (R53): the low n bytes of `v`, most significant byte first; the bits above are dropped (R55). -/
def serialize (v : Word) (n : Width) : List Byte :=
  (List.range n.bytes).map fun k => v.extractLsb' (8 * (n.bytes - 1 - k)) 8

/-- Deserialize (R54): the bytes assembled most significant byte first, zero above; no sign extension. -/
def deserialize (bs : List Byte) : Word :=
  bs.foldl (fun acc b => (acc <<< 8) ||| b.setWidth 32) 0

/-- The dummy bytes of a wide read (R95, R134): n bytes of DUMMY. -/
def dummies (n : Width) : List Byte := List.replicate n.bytes Config.dummy

/-- The eight bits of a byte in the order they go over the wire, most significant bit first (R45, R52). -/
def wireBits (b : Byte) : List Bool := [b[7], b[6], b[5], b[4], b[3], b[2], b[1], b[0]]

end Sys2Proof.Machine
end

