-- ==== Sys2Proof/Machine/State.lean ====
section
/-!
DEFINITION. The state of one block (10_state.md R20, Table 10-1), the host's side of the request interface and the chip's
side of the bus as plain data (log entries 1 to 4), the reasons a step can stop, and the state after reset
(70_reset_and_hazards.md R200, Table 70-1).
-/
namespace Sys2Proof.Machine

/-- The level of the chip-select line CS_LINE, active low (R26). -/
inductive CsLevel where
  | undriven | high | low
  deriving DecidableEq, Repr

/-- The bit order the block asks of the transport: the spec has the one symbol MSB_FIRST (R46, R52). -/
inductive BitOrder where
  | msbFirst
  deriving DecidableEq, Repr

/-- The clock mode the block asks of the transport: the spec has the one symbol MODE0 (R46, R52). -/
inductive ClockMode where
  | mode0
  deriving DecidableEq, Repr

/-- A transport configuration, the value of BUS_CFG once INIT has run (R24, Table 10-1). -/
structure BusConfig where
  hz : Word
  order : BitOrder
  mode : ClockMode
  deriving DecidableEq, Repr

/-- A transport event, the alphabet of TRACE (R28). -/
inductive Event where
  /-- `CFG_LINE(line)`: configure the line as an output. -/
  | cfgLine (line : LineId)
  /-- `CFG(hz, order, mode)`: configure the transport. -/
  | cfg (hz : Word) (order : BitOrder) (mode : ClockMode)
  /-- `SEL(line)`: drive the line low. -/
  | sel (line : LineId)
  /-- `DES(line)`: drive the line high. -/
  | des (line : LineId)
  /-- `XCHG(out, in)`: one full-duplex byte exchange. -/
  | xchg (out inn : Byte)
  deriving DecidableEq, Repr

/-- The fault kinds (R171, Table 60-1). -/
inductive FaultKind where
  | notInitialized | fieldRange | illegalRequest | requestOverlap
  deriving DecidableEq, Repr

/-- A fault record (kind, REQ, detail) (R171). -/
structure FaultRecord where
  kind : FaultKind
  req : ReqWord
  detail : Option FieldDetail
  deriving DecidableEq, Repr

/-- What an accepted request returns to the host (R29): nothing, an 8-bit value, or a 32-bit value. -/
inductive Response where
  | unit
  | byte (v : Byte)
  | wide (v : Word)
  deriving DecidableEq, Repr

/-- Why a step stops with a fault. -/
inductive Fault where
  /-- Raised by every step of a block whose FAULT holds a record of kind other than ILLEGAL_REQUEST: "while FAULT is not
  `none` the block takes no step" (R27, R179). Safe: the spec gives no step, and the model has none. -/
  | standing (f : FaultRecord)
  deriving DecidableEq, Repr

/-- Why an instruction or a request has no meaning in the model. -/
inductive Refusal where
  /-- Raised by an arm of `exec` whose instruction has no meaning yet, by its mnemonic. No arm does. Safe. -/
  | notModelled (mnemonic : String)
  /-- Raised by every step of a block whose FAULT records ILLEGAL_REQUEST, with the request word recorded: "the refusal mark
  stays for the whole run" (R175). Safe: the model has no meaning for the word. -/
  | illegalRequest (req : ReqWord)
  deriving DecidableEq, Repr

/-- The state of one block. The first seven fields are Table 10-1, the eighth is R172's "a frame is in progress"; the rest
carries, as plain data, the parameter CS_LINE and the two outside agents (log entries 1 to 4). -/
structure State where
  /-- W, the Transfer Width (R21). -/
  w : Width
  /-- SPEED_PREF, in hertz (R23). -/
  speedPref : Word
  /-- BUS_CFG, what the block last asked of the transport (R24). -/
  busCfg : Option BusConfig
  /-- CS_N, the level of the chip-select line (R26). -/
  csN : CsLevel
  /-- INIT_DONE (R25). -/
  initDone : Bool
  /-- FAULT (R27, R171). -/
  fault : Option FaultRecord
  /-- TRACE, the event history, oldest event first (R28). -/
  trace : List Event
  /-- Whether a frame is in progress: its SEL is emitted and its DES is not (R172, R176). The model's own field (log entry 7). -/
  frameOpen : Bool
  /-- CS_LINE, the parameter the block was constructed with (R36). No step writes it (log entry 2). -/
  csLine : LineId
  /-- The requests the host has issued and the block has not taken yet, oldest first (R36, R64; log entry 1). -/
  pending : List Request
  /-- The responses the host has received, oldest first: the "host-side list" of R29 (log entry 4). -/
  responses : List Response
  /-- The replies of the chip that a run fixes, by number of the exchange (R101); `none`, and any exchange past the list's end,
  is `*`, a free draw (R71). No step writes it (log entry 3). -/
  replies : List (Option Byte)
  /-- How many byte exchanges the block has made: the number of the next one (log entry 3). -/
  exchanged : Nat
  deriving DecidableEq, Repr

/-- A block right after its construction as a Device Handle on line `line` with default speed `hz`, which is what reset is
(R200, Table 70-1). It emits no event (R201). -/
def State.construct (line : LineId) (hz : Word) : State where
  w := Config.resetWidth
  speedPref := hz
  busCfg := none
  csN := .undriven
  initDone := false
  fault := none
  trace := []
  frameOpen := false
  csLine := line
  pending := []
  responses := []
  replies := []
  exchanged := 0

/-- The block right after reset (R200), with the OPEN parameters CS_LINE and DEFAULT_SPEED_HZ (R8). -/
def State.reset : State := State.construct Config.csLine Config.defaultSpeedHz

end Sys2Proof.Machine
end

