-- ==== Sys2Proof/Machine/Flags.lean ====
section
/-!
DEFINITION. The block has no status flags and no condition codes (10_state.md R32): no instruction computes one. What stands
here is the status the acceptance check reads (60_exceptions.md R172) and the fault codes (R171).
-/
namespace Sys2Proof.Machine

/-- The code of a fault kind (R171, Table 60-1). -/
def FaultKind.code : FaultKind → Nat
  | .notInitialized => 1
  | .fieldRange => 2
  | .illegalRequest => 3
  | .requestOverlap => 4

/-- The block stands between steps with no fault and no open frame: the generic checks of R172 pass. -/
def State.accepts (s : State) : Prop := s.fault = none ∧ s.frameOpen = false

/-- A bus operation passes R172 up to its operand check: the generic checks pass and INIT has run (R173). -/
def State.ready (s : State) : Prop := s.accepts ∧ s.initDone = true

end Sys2Proof.Machine
end

