-- ==== Sys2Proof/Machine/Ops.lean ====
section
/-!
DEFINITION. The named operations of the block: the Byte Transport's primitives (20_memory.md R43 to R47), the frame (R48), the
response (10_state.md R29), the acceptance check and the entry of a fault (60_exceptions.md R172, R177). The block has no memory
(R40), no register file (R30) and no return from a fault (R180), so no operation for these exists.
-/
namespace Sys2Proof.Machine

/-- What a step of this machine answers. -/
abbrev Answer := Host.Outcome State Fault Refusal

/-- `Select()` (R43): drives CS_LINE low. A frame is now in progress (R176). -/
def select (s : State) : State :=
  { s with csN := .low, frameOpen := true, trace := s.trace ++ [.sel s.csLine] }

/-- `Deselect()` (R44): drives CS_LINE high. No frame is in progress after it. -/
def deselect (s : State) : State :=
  { s with csN := .high, frameOpen := false, trace := s.trace ++ [.des s.csLine] }

/-- The byte the chip returns in the block's exchange number `n`: the run's fixed reply where there is one (R101), else a free
draw (R71). -/
def State.reply (s : State) (n : Nat) : Byte := s.replies[n]?.join.getD (Config.draw s.csLine n)

/-- `Exchange(out)` (R45): one full-duplex byte transfer, which always completes (R72). -/
def exchange (out : Byte) (s : State) : Byte × State :=
  let inn := s.reply s.exchanged
  (inn, { s with trace := s.trace ++ [.xchg out inn], exchanged := s.exchanged + 1 })

/-- The exchanges of a frame's payload, in order, and the bytes received (R48). -/
def exchangeAll : List Byte → State → List Byte × State
  | [], s => ([], s)
  | out :: rest, s =>
    let first := exchange out s
    let more := exchangeAll rest first.2
    (first.1 :: more.1, more.2)

/-- `Configure(hz, order, mode)` (R46), with BUS_CFG as the mirror of the last such event (R24). -/
def configure (hz : Word) (order : BitOrder) (mode : ClockMode) (s : State) : State :=
  { s with busCfg := some ⟨hz, order, mode⟩, trace := s.trace ++ [.cfg hz order mode] }

/-- `ConfigureLineOutput()` (R47). -/
def configureLineOutput (s : State) : State := { s with trace := s.trace ++ [.cfgLine s.csLine] }

/-- `Frame(cmd, tx)` (R48): one chip-select bracket; the reply to the command byte is discarded (R51). -/
def frame (cmd : Byte) (tx : List Byte) (s : State) : List Byte × State :=
  let rx := exchangeAll tx (exchange cmd (select s)).2
  (rx.1, deselect rx.2)

/-- `respond(v)` (R29): the request returns `v` to the host. -/
def respond (v : Response) (s : State) : State := { s with responses := s.responses ++ [v] }

/-- W <- n (R147). -/
def setWidth (n : Width) (s : State) : State := { s with w := n }

/-- SPEED_PREF <- hz (R165). -/
def setSpeedPref (hz : Word) (s : State) : State := { s with speedPref := hz }

/-- INIT_DONE <- true (R110). -/
def setInitDone (s : State) : State := { s with initDone := true }

/-- Taking a fault (R177): FAULT records (kind, REQ, detail) and nothing else changes. There is no vector, no handler and no
mode change. -/
def takeFault (kind : FaultKind) (req : ReqWord) (detail : Option FieldDetail) (s : State) : State :=
  { s with fault := some ⟨kind, req, detail⟩ }

/-- `raise` (R11): the request ends by taking a fault. Log entry 5. -/
def raise (kind : FaultKind) (req : ReqWord) (detail : Option FieldDetail) (s : State) : Answer :=
  .next (takeFault kind req detail s)

/-- A faulted block takes no step (R179); where the fault is ILLEGAL_REQUEST the run is refused (R175). Log entry 6. -/
def standing (f : FaultRecord) : Answer :=
  match f.kind with
  | .illegalRequest => .refused (.illegalRequest f.req)
  | .notInitialized | .fieldRange | .requestOverlap => .fault (.standing f)

/-- The checks of R172 that every request meets, in their order: a standing fault (R179), then REQUEST_OVERLAP (R176). What
follows them runs only when both pass. -/
def accept (req : ReqWord) (perform : State → Answer) (s : State) : Answer :=
  match s.fault with
  | some f => standing f
  | none => if s.frameOpen then raise .requestOverlap req none s else perform s

/-- The checks of R172 that a bus operation meets: the generic ones, then NOT_INITIALIZED (R173). -/
def acceptBus (req : ReqWord) (perform : State → Answer) (s : State) : Answer :=
  accept req (fun s => if s.initDone then perform s else raise .notInitialized req none s) s

/-- The operand check of R172 (R174): FIELD_RANGE with the first failing operand, else the payload goes on. -/
def withPayload (req : ReqWord) (payload : Except FieldDetail Byte) (perform : Byte → State → Answer) (s : State) : Answer :=
  match payload with
  | .error d => raise .fieldRange req (some d) s
  | .ok p => perform p s

/-- CLEAR(cmd) and LOAD(cmd) (R120, R160): a frame of the command byte alone. -/
def commandOnly (cmd : Byte) (s : State) : State := respond .unit (frame cmd [] s).2

/-- READ_BYTE(cmd) (R130): one dummy byte; the byte received with it is the response. -/
def readByte (cmd : Byte) (s : State) : State :=
  let rx := frame cmd [Config.dummy] s
  respond (.byte (rx.1.headD 0)) rx.2

/-- READ_WIDE(cmd) (R134): W dummy bytes, the width sampled at the start; the bytes received are the response. -/
def readWide (cmd : Byte) (s : State) : State :=
  let rx := frame cmd (dummies s.w) s
  respond (.wide (deserialize rx.1)) rx.2

/-- WRITE(cmd, payload) (R145): every byte received is discarded. -/
def write (cmd : Byte) (payload : List Byte) (s : State) : State := respond .unit (frame cmd payload s).2

/-- The request word that decodes to no operation: ILLEGAL_REQUEST (R172, R175). -/
def execIllegal (req : ReqWord) (s : State) : Answer := accept req (raise .illegalRequest req none) s

/-- The next operation is the next request the host has issued (R31, R64, R68): taken from the front of the queue. -/
def takeRequest (s : State) : Option (Request × State) :=
  match s.pending with
  | [] => none
  | r :: rest => some (r, { s with pending := rest })

/-- No request waits: the block is idle "and its state is kept" (R189), unless it is faulted (R27). -/
def idle (s : State) : Answer :=
  match s.fault with
  | some f => standing f
  | none => .next s

/-- The host issues a request (R214): it waits at the end of the queue. No step of the block does this. -/
def issue (r : Request) (s : State) : State := { s with pending := s.pending ++ [r] }

/-- The request is the next one the block takes. -/
def place (r : Request) (s : State) : State := { s with pending := r :: s.pending }

end Sys2Proof.Machine
end

