-- ==== Sys2Proof/Machine/Clear.lean ====
section
/-!
DEFINITION. The clear operations (41_clear.md). None of them changes W (R120, R122).
-/
namespace Sys2Proof.Machine

/-- CLR_MDR0 (R121). -/
def execClrMdr0 (s : State) : Answer :=
  acceptBus (busReq .clear .mdr0) (fun s => .next (commandOnly (commandByte .clear .mdr0) s)) s

/-- CLR_MDR1 (R122). -/
def execClrMdr1 (s : State) : Answer :=
  acceptBus (busReq .clear .mdr1) (fun s => .next (commandOnly (commandByte .clear .mdr1) s)) s

/-- CLR_CNTR (R123). -/
def execClrCntr (s : State) : Answer :=
  acceptBus (busReq .clear .cntr) (fun s => .next (commandOnly (commandByte .clear .cntr) s)) s

/-- CLR_STR (R124). -/
def execClrStr (s : State) : Answer :=
  acceptBus (busReq .clear .str) (fun s => .next (commandOnly (commandByte .clear .str) s)) s

end Sys2Proof.Machine
end

