-- ==== Sys2Proof/Machine/Initialization.lean ====
section
/-!
DEFINITION. Initialization (40_initialize.md).
-/
namespace Sys2Proof.Machine

/-- INIT (R110, R111): legal before and after a first INIT; three events, no SEL and no XCHG. -/
def execInit (s : State) : Answer :=
  accept initReq (fun s => .next (respond .unit (setInitDone
    (configure s.speedPref .msbFirst .mode0 (deselect (configureLineOutput s)))))) s

end Sys2Proof.Machine
end

