-- ==== Sys2Proof/Machine/Load.lean ====
section
/-!
DEFINITION. The load operations (44_load.md). The block does not track whether DTR was written (R160).
-/
namespace Sys2Proof.Machine

/-- LD_CNTR (R161). -/
def execLdCntr (s : State) : Answer :=
  acceptBus (busReq .load .cntr) (fun s => .next (commandOnly (commandByte .load .cntr) s)) s

/-- LD_OTR (R162): the frame is the same under either reading of what the chip copies (90_conflicts.md C6). -/
def execLdOtr (s : State) : Answer :=
  acceptBus (busReq .load .otr) (fun s => .next (commandOnly (commandByte .load .otr) s)) s

end Sys2Proof.Machine
end

