-- ==== Sys2Proof/Machine/Read.lean ====
section
/-!
DEFINITION. The read operations (42_read.md). A read has no block-side effect beyond TRACE, CS_N and its response (R61).
-/
namespace Sys2Proof.Machine

/-- RD_MDR0 (R131). -/
def execRdMdr0 (s : State) : Answer :=
  acceptBus (busReq .read .mdr0) (fun s => .next (readByte (commandByte .read .mdr0) s)) s

/-- RD_MDR1 (R132): W is not changed, whatever byte is read. -/
def execRdMdr1 (s : State) : Answer :=
  acceptBus (busReq .read .mdr1) (fun s => .next (readByte (commandByte .read .mdr1) s)) s

/-- RD_STR (R133): the byte is not interpreted. -/
def execRdStr (s : State) : Answer :=
  acceptBus (busReq .read .str) (fun s => .next (readByte (commandByte .read .str) s)) s

/-- RD_CNTR (R135). -/
def execRdCntr (s : State) : Answer :=
  acceptBus (busReq .read .cntr) (fun s => .next (readWide (commandByte .read .cntr) s)) s

/-- RD_OTR (R136). -/
def execRdOtr (s : State) : Answer :=
  acceptBus (busReq .read .otr) (fun s => .next (readWide (commandByte .read .otr) s)) s

end Sys2Proof.Machine
end

