-- ==== Sys2Proof/Machine/Speed.lean ====
section
/-!
DEFINITION. Speed configuration (45_speed.md).
-/
namespace Sys2Proof.Machine

/-- SET_SPEED (R165, R166): stores the preference as given, emits nothing, and needs no INIT. -/
def execSetSpeed (hz : Word) (s : State) : Answer :=
  accept speedReq (fun s => .next (respond .unit (setSpeedPref hz s))) s

end Sys2Proof.Machine
end

