-- ==== Sys2Proof/Machine/Write.lean ====
section
/-!
DEFINITION. The write operations (43_write.md).
-/
namespace Sys2Proof.Machine

/-- WR_MDR0 (R146). -/
def execWrMdr0 (quad count index sync filter : Byte) (s : State) : Answer :=
  acceptBus (busReq .write .mdr0)
    (withPayload (busReq .write .mdr0) (assembleMdr0 quad count index sync filter)
      fun p s => .next (write (commandByte .write .mdr0) [p] s)) s

/-- WR_MDR1 (R147): after the frame's DES, W is set from the operand's byte-mode code. -/
def execWrMdr1 (mode enable idx cmp bw cy : Byte) (s : State) : Answer :=
  acceptBus (busReq .write .mdr1)
    (withPayload (busReq .write .mdr1) (assembleMdr1 mode enable idx cmp bw cy)
      fun p s => .next (setWidth (widthOf (mode.extractLsb' 0 2)) (write (commandByte .write .mdr1) [p] s))) s

/-- WR_DTR (R148): the width is sampled at the start; the bits above the low W bytes are dropped without a fault (R55). -/
def execWrDtr (value : Word) (s : State) : Answer :=
  acceptBus (busReq .write .dtr) (fun s => .next (write (commandByte .write .dtr) (serialize value s.w) s)) s

end Sys2Proof.Machine
end

