-- ==== Sys2Proof/Machine/Dispatch.lean ====
section
/-!
DEFINITION. The meaning of every instruction, one arm per constructor.
-/
namespace Sys2Proof.Machine

def exec (i : Instr) (s : State) : Host.Outcome State Fault Refusal :=
  match i with
  | .init => Sys2Proof.Machine.execInit s
  | .clrMdr0 => Sys2Proof.Machine.execClrMdr0 s
  | .clrMdr1 => Sys2Proof.Machine.execClrMdr1 s
  | .clrCntr => Sys2Proof.Machine.execClrCntr s
  | .clrStr => Sys2Proof.Machine.execClrStr s
  | .rdMdr0 => Sys2Proof.Machine.execRdMdr0 s
  | .rdMdr1 => Sys2Proof.Machine.execRdMdr1 s
  | .rdStr => Sys2Proof.Machine.execRdStr s
  | .rdCntr => Sys2Proof.Machine.execRdCntr s
  | .rdOtr => Sys2Proof.Machine.execRdOtr s
  | .wrMdr0 quad count index sync filter => Sys2Proof.Machine.execWrMdr0 quad count index sync filter s
  | .wrMdr1 mode enable idx cmp bw cy => Sys2Proof.Machine.execWrMdr1 mode enable idx cmp bw cy s
  | .wrDtr value => Sys2Proof.Machine.execWrDtr value s
  | .ldCntr => Sys2Proof.Machine.execLdCntr s
  | .ldOtr => Sys2Proof.Machine.execLdOtr s
  | .setSpeed hz => Sys2Proof.Machine.execSetSpeed hz s

end Sys2Proof.Machine
end

