-- ==== Sys2Proof/Machine/Step.lean ====
section
/-!
DEFINITION. One step: the block takes the next request of the host, decodes it and performs it whole (00_scope.md R7, R31).
-/
namespace Sys2Proof.Machine

/-- One step of the block (R7, R172). With no request waiting the block is idle (R189). -/
def step (s : State) : Host.Outcome State Fault Refusal :=
  match takeRequest s with
  | none => idle s
  | some (r, t) =>
    match decode r with
    | .error _ => execIllegal r.req t
    | .ok i => exec i t

/-- The request whose bits are `w` is issued so that the very next step takes it (log entries 1 and 8). -/
def State.withFetchWord (s : State) (nbits w : Nat) : State := place (requestOfBits nbits w) s

end Sys2Proof.Machine
end

