-- ==== Sys2Proof/Machine/Assembler.lean ====
section
/-!
DEFINITION. The assembler (30_encoding.md R100 to R103): one request a line in the operation forms of Table 30-8, numeric
literals, the constants of Table 30-9, comments, and the annotation that fixes the chip's replies for a worked run. It stands
outside `step`: the block itself sees only requests (R85). Log entry 14.
-/
namespace Sys2Proof.Machine

/-- Why a line is no program line. -/
inductive AsmError where
  /-- The line is not of the shape `name(operands)`, with or without an annotation. -/
  | malformed
  /-- The name is none of Table 30-8, or it has another number of operands. -/
  | unknownForm
  /-- The register is not in the form's list: "an assembly error. Such a form has no encoding" (R100). -/
  | registerNotAdmitted
  /-- An operand is neither a literal nor a constant, or it does not fit its width (R86). -/
  | badOperand
  deriving DecidableEq, Repr

/-- A program line: its operation and, on a read, the draws its annotation names (R101). -/
structure AsmLine where
  instr : Instr
  miso : Option (List Byte)
  deriving DecidableEq, Repr

/-- The register names (R100). -/
def asmRegisters : List (String × Target) :=
  [("MDR0", .mdr0), ("MDR1", .mdr1), ("DTR", .dtr), ("CNTR", .cntr), ("OTR", .otr), ("STR", .str)]

/-- The constants of Table 30-9, and the aliases the source's example uses (R102). -/
def asmConstants : List (String × Byte) :=
  [("QUAD_NONE", 0x00), ("QUAD_X1", 0x01), ("QUAD_X2", 0x02), ("QUAD_X4", 0x03),
   ("COUNT_FREE_RUN", 0x00), ("COUNT_SINGLE_CYCLE", 0x04), ("COUNT_RANGE_LIMIT", 0x08), ("COUNT_MODULO_N", 0x0C),
   ("INDEX_DISABLED", 0x00), ("INDEX_LOAD_CNTR", 0x10), ("INDEX_RESET_CNTR", 0x20), ("INDEX_LOAD_OTR", 0x30)] ++
  [("SYNC_ASYNC", 0x00), ("SYNC_SYNC", 0x40), ("FILTER_1", 0x00), ("FILTER_2", 0x80),
   ("BYTE_4", 0x00), ("BYTE_3", 0x01), ("BYTE_2", 0x02), ("BYTE_1", 0x03), ("CE_0", 0x00), ("CE_1", 0x04),
   ("FLAG_NONE", 0x00), ("FLAG_IDX", 0x10), ("FLAG_CMP", 0x20), ("FLAG_BW", 0x40), ("FLAG_CY", 0x80)] ++
  [("x2", 0x02), ("single_cycle", 0x04), ("CNTR_load", 0x10), ("sync", 0x40), ("filter_2", 0x80)]

/-- The text before a comment: "Text after `--` on a line is a comment" (R100). -/
def cutComment : List Char → List Char
  | [] => []
  | '-' :: '-' :: _ => []
  | c :: rest => c :: cutComment rest

def isBlank (c : Char) : Bool := c == ' ' || c == '\t' || c == '\r'

def trimBlanks (cs : List Char) : List Char := ((cs.dropWhile isBlank).reverse.dropWhile isBlank).reverse

/-- The parts of a text between separators. -/
def splitAtChar (sep : Char) : List Char → List (List Char)
  | [] => [[]]
  | c :: rest =>
    let parts := splitAtChar sep rest
    if c == sep then [] :: parts
    else match parts with
      | [] => [[c]]
      | p :: ps => (c :: p) :: ps

/-- The trimmed operands of a list of operands; a blank text has none. -/
def operandTexts (cs : List Char) : List (List Char) :=
  if trimBlanks cs = [] then [] else (splitAtChar ',' cs).map trimBlanks

/-- The value of a digit in a base of at most 16. -/
def digitValue (base : Nat) (c : Char) : Option Nat :=
  let n := c.toNat
  let d := if 48 ≤ n ∧ n ≤ 57 then n - 48 else if 97 ≤ n ∧ n ≤ 102 then n - 87 else if 65 ≤ n ∧ n ≤ 70 then n - 55 else 16
  if d < base then some d else none

/-- The value of a run of digits read on from `acc`. -/
def digitsValue (base acc : Nat) : List Char → Option Nat
  | [] => some acc
  | c :: rest =>
    match digitValue base c with
    | some d => digitsValue base (base * acc + d) rest
    | none => none

/-- A numeric literal, decimal or `0x` hexadecimal (R100). -/
def literalValue : List Char → Option Nat
  | [] => none
  | '0' :: 'x' :: d :: ds => digitsValue 16 0 (d :: ds)
  | d :: ds => digitsValue 10 0 (d :: ds)

/-- An operand's value: a literal or a constant (R100). -/
def operandValue (cs : List Char) : Option Nat :=
  match literalValue cs with
  | some n => some n
  | none => (asmConstants.lookup (String.ofList cs)).map (·.toNat)

/-- An operand of `width` bits (R86); a value that does not fit is an assembly error (log entry 14). -/
def operandBits (width : Nat) (cs : List Char) : Except AsmError (BitVec width) :=
  match operandValue cs with
  | some n => if n < 2 ^ width then .ok (BitVec.ofNat width n) else .error .badOperand
  | none => .error .badOperand

/-- The operands of a list, each of 8 bits. -/
def operandBytes : List (List Char) → Except AsmError (List Byte)
  | [] => .ok []
  | cs :: rest =>
    match operandBits 8 cs, operandBytes rest with
    | .ok b, .ok bs => .ok (b :: bs)
    | _, _ => .error .badOperand

/-- The operation of a form applied to a register (Table 30-8). -/
def registerForm (name : String) (t : Target) : Except AsmError Instr :=
  if name = "clear" then
    match t with
    | .mdr0 => .ok .clrMdr0
    | .mdr1 => .ok .clrMdr1
    | .cntr => .ok .clrCntr
    | .str => .ok .clrStr
    | .dtr | .otr => .error .registerNotAdmitted
  else if name = "read_byte" then
    match t with
    | .mdr0 => .ok .rdMdr0
    | .mdr1 => .ok .rdMdr1
    | .str => .ok .rdStr
    | .dtr | .cntr | .otr => .error .registerNotAdmitted
  else if name = "read_wide" then
    match t with
    | .cntr => .ok .rdCntr
    | .otr => .ok .rdOtr
    | .mdr0 | .mdr1 | .dtr | .str => .error .registerNotAdmitted
  else if name = "load" then
    match t with
    | .cntr => .ok .ldCntr
    | .otr => .ok .ldOtr
    | .mdr0 | .mdr1 | .dtr | .str => .error .registerNotAdmitted
  else .error .unknownForm

/-- The operation of a form that takes byte operands, or none (Table 30-8). -/
def operandForm (name : String) (operands : List Byte) : Except AsmError Instr :=
  match operands with
  | [] => if name = "initialize" then .ok .init else .error .unknownForm
  | [q, c, x, y, f] => if name = "write_mdr0" then .ok (.wrMdr0 q c x y f) else .error .unknownForm
  | [m, e, x, c, b, y] => if name = "write_mdr1" then .ok (.wrMdr1 m e x c b y) else .error .unknownForm
  | _ => .error .unknownForm

/-- The operation of a form with its operands' texts (R100, Table 30-8). -/
def assembleForm (name : String) (operands : List (List Char)) : Except AsmError Instr :=
  match operands with
  | [cs] =>
    if name = "write_dtr" then (operandBits 32 cs).map .wrDtr
    else if name = "set_speed" then (operandBits 32 cs).map .setSpeed
    else match asmRegisters.lookup (String.ofList cs) with
      | some t => registerForm name t
      | none => .error .badOperand
  | _ =>
    match operandBytes operands with
    | .ok bs => operandForm name bs
    | .error e => .error e

/-- The annotation `<- miso [b1, ..., bn]` of a read line (R101), from the text after the form; a blank text is no annotation. -/
def assembleAnnotation (i : Instr) (cs : List Char) : Except AsmError (Option (List Byte)) :=
  match trimBlanks cs with
  | [] => .ok none
  | '<' :: '-' :: rest =>
    let body := trimBlanks rest
    if body.take 4 = ['m', 'i', 's', 'o'] then
      match i, trimBlanks (body.drop 4) with
      | .rdMdr0, '[' :: inner | .rdMdr1, '[' :: inner | .rdStr, '[' :: inner | .rdCntr, '[' :: inner | .rdOtr, '[' :: inner =>
        if inner.dropWhile (· != ']') = [']'] then
          (operandBytes (operandTexts (inner.takeWhile (· != ']')))).map some
        else .error .malformed
      | _, _ => .error .malformed
    else .error .malformed
  | _ => .error .malformed

/-- One line of a program (R100): none for a line that is blank or only a comment, else its operation and annotation. -/
def assembleLine (line : List Char) : Except AsmError (Option AsmLine) :=
  match trimBlanks (cutComment line) with
  | [] => .ok none
  | text =>
    let name := text.takeWhile (· != '(')
    match text.dropWhile (· != '(') with
    | '(' :: rest =>
      match rest.dropWhile (· != ')') with
      | ')' :: after =>
        match assembleForm (String.ofList name) (operandTexts (rest.takeWhile (· != ')'))) with
        | .error e => .error e
        | .ok i => (assembleAnnotation i after).map fun miso => some ⟨i, miso⟩
      | _ => .error .malformed
    | _ => .error .malformed

/-- A program: its lines in order (R100, R103: every line is one request, and there are no pseudo-instructions). -/
def assembleLines : List (List Char) → Except AsmError (List AsmLine)
  | [] => .ok []
  | line :: rest =>
    match assembleLine line, assembleLines rest with
    | .ok (some l), .ok ls => .ok (l :: ls)
    | .ok none, .ok ls => .ok ls
    | .error e, _ => .error e
    | _, .error e => .error e

/-- A program's text, lines separated by line feeds. -/
def assemble (text : List Char) : Except AsmError (List AsmLine) := assembleLines (splitAtChar '\n' text)

/-- A line is issued to a block with no request waiting: its request joins the queue, and its annotation fixes the replies that
follow the command byte's, whose draw is `*`, any value (R101). -/
def issueLine (l : AsmLine) (s : State) : State :=
  { issue (encode l.instr) s with
    replies := (List.range s.exchanged).map (fun n => s.replies[n]?.join) ++
      match l.miso with
      | some bs => none :: bs.map some
      | none => [] }

end Sys2Proof.Machine
end

