-- ==== Sys2Proof/Machine/Bus.lean ====
section
/-!
DEFINITION. Several blocks on one physical bus (20_memory.md R70, 10_state.md R35, 60_exceptions.md R187): one block per chip,
each with its own line and its own state; they share only the bus, whose history is a list of tagged events. Which block
moves next is free: `Bus.stepOf k` is the move of block `k`. The host's machine (`core`) is one block. Log entry 13.
-/
namespace Sys2Proof.Machine

/-- The blocks that share the bus, and its history: each event with the number of the block it is of. -/
structure Bus where
  blocks : List State
  history : List (Nat × Event)
  deriving DecidableEq, Repr

/-- N_DEV, the number of blocks that share the bus: OPEN, at least 1 (R8, Table 00-3). -/
def Bus.nDev (b : Bus) : Nat := b.blocks.length

/-- What Table 00-3 asks of the parameters of blocks that share a bus: at least one block, and a CS_LINE of its own for each,
which is its identifier (R8, R35, R187). -/
abbrev LinesFitABus (lines : List LineId) : Prop := 1 ≤ lines.length ∧ lines.Nodup

/-- The blocks right after their construction, each with its line and default speed; the bus has seen nothing (R35, R187). None
where the lines do not fit a bus (R8). -/
def Bus.construct (handles : List (LineId × Word)) : Option Bus :=
  if LinesFitABus (handles.map Prod.fst) then
    some { blocks := handles.map fun h => State.construct h.1 h.2, history := [] }
  else none

/-- The events a step from `s` to `t` appended to TRACE. -/
def newEvents (s t : State) : List Event := t.trace.drop s.trace.length

/-- Block `k` takes one step; its events go to the bus as they stand in its TRACE. A block that takes no step changes
nothing. -/
def Bus.stepOf (k : Nat) (b : Bus) : Bus :=
  match b.blocks[k]? with
  | none => b
  | some s =>
    match step s with
    | .next t => { blocks := b.blocks.set k t, history := b.history ++ (newEvents s t).map (Prod.mk k) }
    | .fault _ | .refused _ => b

/-- The moves of the blocks in the order of a schedule. -/
def Bus.run : List Nat → Bus → Bus
  | [], b => b
  | k :: ks, b => Bus.run ks (Bus.stepOf k b)

end Sys2Proof.Machine
end

