-- ==== Sys2Proof/WellFormed.lean ====
section
/-!
DEFINITION. Well-formed requests: the caller's side of the mode-register writers' contract (43_write.md R146: each operand
is "a pre-shifted bitfield constant" lying in its own field). A request that breaks it is still decoded and executed: it
takes FIELD_RANGE (60_exceptions.md R174).
-/
namespace Sys2Proof

/-- Every operand of a mode-register write lies in its own field; the other operations have no such rule (R94, R165). -/
def WellFormed : Instr → Bool
  | .wrMdr0 q c x y f => Machine.firstOutside 0 (Machine.mdr0Fields q c x y f) == none
  | .wrMdr1 m e x c b y => Machine.firstOutside 0 (Machine.mdr1Fields m e x c b y) == none
  | .init | .clrMdr0 | .clrMdr1 | .clrCntr | .clrStr | .rdMdr0 | .rdMdr1 | .rdStr | .rdCntr | .rdOtr
  | .wrDtr _ | .ldCntr | .ldOtr | .setSpeed _ => true

end Sys2Proof
end

