-- ==== Sys2Proof/Safety.lean ====
section
/-!
DEFINITION. What counts as a good state, a good history and a good end, in the terms the statements use. The bus monitor
reads a history of events alone: it knows the command byte table (30_encoding.md Table 30-2), the frame shapes (20_memory.md
Table 20-3) and the INIT sequence (40_initialize.md R110), and it shares with the meanings only `widthOf` and `deserialize`.
-/
namespace Sys2Proof

/-- The operands R172 checks, in A-byte order, each with the mask R174 lists for it; only the mode-register writes have any. -/
def Instr.maskedOperands : Instr → List (Byte × Byte)
  | .wrMdr0 q c x y f => [(q, 0x03), (c, 0x0C), (x, 0x30), (y, 0x40), (f, 0x80)]
  | .wrMdr1 m e x c b y => [(m, 0x03), (e, 0x04), (x, 0x10), (c, 0x20), (b, 0x40), (y, 0x80)]
  | .init | .clrMdr0 | .clrMdr1 | .clrCntr | .clrStr | .rdMdr0 | .rdMdr1 | .rdStr | .rdCntr | .rdOtr
  | .wrDtr _ | .ldCntr | .ldOtr | .setSpeed _ => []

end Sys2Proof

namespace Sys2Proof.Machine

/-- The replies of the chip in the block's next `len` exchanges from number `n` on (R71). -/
def State.repliesFrom (s : State) (n len : Nat) : List Byte := (List.range len).map fun k => s.reply (n + k)

/-- The events of a whole frame begun in state `s` (R48): SEL, the command byte, the payload bytes in order, DES. -/
def frameEvents (s : State) (cmd : Byte) (tx : List Byte) : List Event :=
  [.sel s.csLine, .xchg cmd (s.reply s.exchanged)] ++
    List.zipWith .xchg tx (s.repliesFrom (s.exchanged + 1) tx.length) ++ [.des s.csLine]

/-- The checks of R172 that bear on every instruction, with its request word: a faulted block takes no step (R179), and a
request that meets an open frame takes REQUEST_OVERLAP and changes nothing else (R176, R177). -/
def GenericChecks (i : Instr) (req : ReqWord) : Prop :=
  (∀ s t : State, s.fault ≠ none → exec i s ≠ .next t) ∧
  (∀ s : State, s.fault = none → s.frameOpen = true →
    exec i s = .next { s with fault := some ⟨.requestOverlap, req, none⟩ })

/-- A bus operation takes NOT_INITIALIZED while INIT_DONE is false, and changes nothing else (R173, R177). -/
def NeedsInit (i : Instr) (req : ReqWord) : Prop :=
  ∀ s : State, s.accepts → s.initDone = false →
    exec i s = .next { s with fault := some ⟨.notInitialized, req, none⟩ }

/-- How many payload bytes follow a command byte, by width (R59, Table 20-3; R96); none for a byte that is no command byte of
the block (R97). -/
def payloadCount (n : Width) (cmd : Byte) : Option Nat :=
  if cmd ∈ [0x08#8, 0x10#8, 0x20#8, 0x30#8, 0xE0#8, 0xE8#8] then some 0
  else if cmd ∈ [0x48#8, 0x50#8, 0x70#8, 0x88#8, 0x90#8] then some 1
  else if cmd ∈ [0x60#8, 0x68#8, 0x98#8] then some n.bytes
  else none

/-- The result the bytes received in a whole frame's payload amount to, if its command byte is a READ (R59, Table 20-3). -/
def readResult (cmd : Byte) (received : List Byte) : List Response :=
  if cmd ∈ [0x48#8, 0x50#8, 0x70#8] then received.map .byte
  else if cmd ∈ [0x60#8, 0x68#8] then [.wide (deserialize received)]
  else []

/-- Where a history stands in the grammar of a block's events. -/
inductive Phase where
  /-- Between frames. -/
  | between
  /-- After INIT's CFG_LINE. -/
  | lineSet
  /-- After INIT's DES. -/
  | lineHigh
  /-- After a SEL. -/
  | selected
  /-- After the command byte: how many payload exchanges are left, and the bytes sent and received so far. -/
  | payload (cmd : Byte) (left : Nat) (sent received : List Byte)
  deriving DecidableEq, Repr

/-- What the monitor has learned from a history: the phase, the Transfer Width, the transport configuration, the level of the
line, and the results of the reads. -/
structure Monitor where
  phase : Phase
  width : Width
  cfg : Option BusConfig
  level : CsLevel
  reads : List Response
  deriving DecidableEq, Repr

/-- Before the first event (Table 70-1). -/
def Monitor.start : Monitor := ⟨.between, .four, none, .undriven, []⟩

/-- The DES of a whole frame: a frame of WR_MDR1 sets the width from the byte-mode code of its payload (R91, R147). -/
def Monitor.close (m : Monitor) (cmd : Byte) (sent received : List Byte) : Monitor :=
  { m with
    phase := .between
    level := .high
    width := if cmd = 0x90#8 then widthOf ((sent.headD 0).extractLsb' 0 2) else m.width
    reads := m.reads ++ readResult cmd received }

/-- One event of the block on `line`, or none where the event may not stand there: a frame is SEL, a command byte of the
table, exactly its payload count of exchanges, DES (R48, R59), after a first INIT (R173); a read sends dummy bytes 0x00
(R95); INIT is CFG_LINE, DES, CFG (R110); every line is the block's own (R28). -/
def Monitor.observe (line : LineId) (m : Monitor) (e : Event) : Option Monitor :=
  match m.phase, e with
  | .between, .cfgLine l => if l = line then some { m with phase := .lineSet } else none
  | .lineSet, .des l => if l = line then some { m with phase := .lineHigh, level := .high } else none
  | .lineHigh, .cfg hz order mode => some { m with phase := .between, cfg := some ⟨hz, order, mode⟩ }
  | .between, .sel l =>
    if l = line ∧ m.cfg.isSome then some { m with phase := .selected, level := .low } else none
  | .selected, .xchg out _ =>
    match payloadCount m.width out with
    | some n => some { m with phase := .payload out n [] [] }
    | none => none
  | .payload cmd (n + 1) sent received, .xchg out inn =>
    if cmd.extractLsb' 6 2 = 0b01#2 ∧ out ≠ 0x00#8 then none
    else some { m with phase := .payload cmd n (sent ++ [out]) (received ++ [inn]) }
  | .payload cmd 0 sent received, .des l => if l = line then some (m.close cmd sent received) else none
  | _, _ => none

/-- A history read from a monitor's state on, oldest event first. -/
def Monitor.replay (line : LineId) : Monitor → List Event → Option Monitor
  | m, [] => some m
  | m, e :: rest =>
    match m.observe line e with
    | some m' => Monitor.replay line m' rest
    | none => none

/-- The responses that carry a value (R29). -/
def dataResponses (rs : List Response) : List Response := rs.filter (· ≠ .unit)

/-- TRACE is a legal history of whole frames and INIT sequences, and everything Table 10-1 holds beside FAULT, SPEED_PREF and
INIT_DONE can be read off it: W (R21), BUS_CFG (R24), CS_N (R26), and the results of the reads (R29). INIT_DONE says that INIT
has run, and no frame is open (R25, R50). -/
def State.Consistent (s : State) : Prop :=
  Monitor.replay s.csLine Monitor.start s.trace = some ⟨.between, s.w, s.busCfg, s.csN, dataResponses s.responses⟩ ∧
  s.initDone = s.busCfg.isSome ∧
  s.csN = (if s.initDone then .high else .undriven) ∧
  s.frameOpen = false

/-- What a fault record says is so (R171, Table 60-1): the detail belongs to FIELD_RANGE alone; NOT_INITIALIZED is recorded for
a bus operation while INIT_DONE is false; FIELD_RANGE names an operand of a mode-register write that has a bit set outside its
mask; ILLEGAL_REQUEST is recorded for a word that decodes to no operation. -/
def State.FaultTrue (s : State) : Prop :=
  ∀ f, s.fault = some f →
    match f.kind with
    | .notInitialized => f.detail = none ∧ s.initDone = false ∧ ∃ i : Instr, i.isBus = true ∧ i.req = f.req
    | .fieldRange => s.initDone = true ∧ ∃ k v mask, f.detail = some ⟨k, v⟩ ∧ inField v mask = false ∧
        ((f.req = 0x088#10 ∧ [0x03#8, 0x0C, 0x30, 0x40, 0x80][k]? = some mask) ∨
         (f.req = 0x090#10 ∧ [0x03#8, 0x04, 0x10, 0x20, 0x40, 0x80][k]? = some mask))
    | .illegalRequest => f.detail = none ∧ ∀ i : Instr, i.req ≠ f.req
    | .requestOverlap => f.detail = none ∧ s.frameOpen = true

/-- The successful end of a run (R215): the last request is issued and has returned, FAULT is none, and CS_N is HIGH if
INIT_DONE is true. -/
def State.SuccessfulEnd (s : State) : Prop :=
  s.pending = [] ∧ s.fault = none ∧ (s.initDone = true → s.csN = .high)

/-- A request that spells an operation whose operands lie in their fields. -/
def goodRequest (r : Request) : Bool :=
  match decode r with
  | .ok i => WellFormed i
  | .error _ => false

/-- What an event shows of the bytes the block sends: everything but the byte received. -/
def Event.sentView : Event → Event
  | .xchg out _ => .xchg out 0
  | e => e

/-- The clock periods the exchanges of a history take at the configured rate, eight bits to a byte (R213, R45). What the
transport adds is not counted. -/
def clockPeriods : List Event → Nat
  | [] => 0
  | .xchg out _ :: rest => (wireBits out).length + clockPeriods rest
  | .cfgLine _ :: rest | .cfg _ _ _ :: rest | .sel _ :: rest | .des _ :: rest => clockPeriods rest

/-- Whether two responses have the same form (R29): unit, 8 bits or 32 bits. -/
def Response.sameForm : Response → Response → Bool
  | .unit, .unit | .byte _, .byte _ | .wide _, .wide _ => true
  | _, _ => false

/-- Two blocks that differ at most in what the chip has returned and will return: the replies, the bytes received in TRACE, and
the values, not the forms, of the responses (R71). -/
def State.EqualButReplies (s s' : State) : Prop :=
  s' = { s with replies := s'.replies, trace := s'.trace, responses := s'.responses } ∧
  s'.trace.map Event.sentView = s.trace.map Event.sentView ∧
  List.Forall₂ (fun r r' => Response.sameForm r r' = true) s.responses s'.responses

/-- Who holds the shared bus, and what ends the hold: the DES of a frame or the CFG of an INIT sequence (R70). -/
inductive Hold where
  | free
  | inFrame (block : Nat)
  | inInit (block : Nat)
  deriving DecidableEq, Repr

/-- One tagged event of the shared history, or none where R70 forbids it: no event of another block stands between a SEL and
its DES (condition 2) or within an INIT sequence (condition 3). -/
def Hold.observe : Hold → Nat × Event → Option Hold
  | .free, (k, .sel _) => some (.inFrame k)
  | .free, (k, .cfgLine _) => some (.inInit k)
  | .free, _ => none
  | .inFrame j, (k, e) =>
    if k = j then match e with
      | .des _ => some .free
      | .xchg _ _ => some (.inFrame j)
      | _ => none
    else none
  | .inInit j, (k, e) =>
    if k = j then match e with
      | .cfg _ _ _ => some .free
      | .des _ => some (.inInit j)
      | _ => none
    else none

/-- A shared history read from a hold on. -/
def Hold.replay : Hold → List (Nat × Event) → Option Hold
  | h, [] => some h
  | h, e :: rest =>
    match h.observe e with
    | some h' => Hold.replay h' rest
    | none => none

/-- Table 00-3 holds of the blocks (R8: N_DEV at least 1, a line of its own for each), and so do the three conditions of R70:
each block's events stand in the shared history in that block's own order, no bracket is broken into, and every INIT sequence is
contiguous. -/
def Bus.Legal (b : Bus) : Prop :=
  LinesFitABus (b.blocks.map State.csLine) ∧
  (∀ (k : Nat) (s : State), b.blocks[k]? = some s → (b.history.filter (·.1 == k)).map (·.2) = s.trace) ∧
  Hold.replay .free b.history = some .free

end Sys2Proof.Machine
end

