-- ==== Sys2Proof/Certificates/Slice0/Obligations.lean ====
section
/-!
DEFINITION. The statements for the provers, from the numbered rules of spec/. `s.accepts` (no standing fault, no open frame)
and `s.ready` (the same, and INIT has run) are the conditions of 60_exceptions.md R172 on the state. In the next states below,
`exchanged`, `responses`, `pending` and `frameOpen` are the model's own fields (log entries 1, 3, 4 and 7), and `s.reply n` is the
free draw of exchange `n` (R71).
-/

open Sys2Proof Sys2Proof.Machine

/-! Reset and parameters -/

/-- R200, Table 70-1; R22; R201 (reset emits no event): construction, for every line and default speed. -/
def Obligations.ConstructionLeavesTheResetState : Prop :=
  ∀ (line : LineId) (hz : Word),
    (State.construct line hz).w = .four ∧ (State.construct line hz).speedPref = hz ∧
    (State.construct line hz).busCfg = none ∧ (State.construct line hz).csN = .undriven ∧
    (State.construct line hz).initDone = false ∧ (State.construct line hz).fault = none ∧
    (State.construct line hz).trace = [] ∧
    State.reset = State.construct Config.csLine Config.defaultSpeedHz

/-! Encoding -/

/-- R80, R81, R82, R84: the three fields of a command byte, and its value `CLASS << 6 | SEL << 3`. -/
def Obligations.CommandByteHoldsClassSelectorAndZero : Prop :=
  (∀ (c : OpClass) (t : Target),
    (commandByte c t).extractLsb' 6 2 = c.code ∧ (commandByte c t).extractLsb' 3 3 = t.code ∧
    (commandByte c t).extractLsb' 0 3 = 0b000#3 ∧
    commandByte c t = (c.code.setWidth 8 <<< 6) ||| (t.code.setWidth 8 <<< 3)) ∧
  (OpClass.clear.code = 0b00#2 ∧ OpClass.read.code = 0b01#2 ∧ OpClass.write.code = 0b10#2 ∧
    OpClass.load.code = 0b11#2) ∧
  (Target.mdr0.code = 0b001#3 ∧ Target.mdr1.code = 0b010#3 ∧ Target.dtr.code = 0b011#3 ∧
    Target.cntr.code = 0b100#3 ∧ Target.otr.code = 0b101#3 ∧ Target.str.code = 0b110#3) ∧
  (∀ t : Target, t.code ≠ 0b000#3 ∧ t.code ≠ 0b111#3 ∧ Target.ofCode t.code = some t) ∧
  Target.ofCode 0b000#3 = none ∧ Target.ofCode 0b111#3 = none

/-- A few of the words of Table 30-4 and of R97, written out from the spec's encoding: a sanity statement. -/
def Obligations.SampleWordsDecodeAsTheTableSays : Prop :=
  decode ⟨0b0100000000, 0⟩ = .ok .init ∧
  decode ⟨0b0000110000, 0⟩ = .ok .clrStr ∧
  decode ⟨0b0001101000, 0⟩ = .ok .rdOtr ∧
  decode ⟨0b0010010000, 0x801000000402⟩ = .ok (.wrMdr1 0x02 0x04 0x00 0x00 0x10 0x80) ∧
  decode ⟨0b0011100000, 0⟩ = .ok .ldCntr ∧
  decode ⟨0b1000000000, 0x0000000F4240⟩ = .ok (.setSpeed 1000000) ∧
  decode ⟨0x018, 0⟩ = .error .unassignedPair ∧
  decode ⟨0x038, 0⟩ = .error .noRegister ∧
  decode ⟨0x00F, 0⟩ = .error .nonzeroZeroField ∧
  decode ⟨0x2FF, 0⟩ = .error .nonzeroCmd ∧
  decode ⟨0x3E0, 0⟩ = .error .reservedKind

/-- R86, R87, Table 30-4: each of the sixteen request words decodes to its operation, with the operands R86 takes from ARG. -/
def Obligations.TableWordsDecodeWithTheirOperands : Prop :=
  ∀ arg : ArgBundle,
    decode ⟨0x100, arg⟩ = .ok .init ∧
    decode ⟨0x008, arg⟩ = .ok .clrMdr0 ∧ decode ⟨0x010, arg⟩ = .ok .clrMdr1 ∧
    decode ⟨0x020, arg⟩ = .ok .clrCntr ∧ decode ⟨0x030, arg⟩ = .ok .clrStr ∧
    decode ⟨0x048, arg⟩ = .ok .rdMdr0 ∧ decode ⟨0x050, arg⟩ = .ok .rdMdr1 ∧ decode ⟨0x070, arg⟩ = .ok .rdStr ∧
    decode ⟨0x060, arg⟩ = .ok .rdCntr ∧ decode ⟨0x068, arg⟩ = .ok .rdOtr ∧
    decode ⟨0x088, arg⟩ = .ok (.wrMdr0 (arg.extractLsb' 0 8) (arg.extractLsb' 8 8) (arg.extractLsb' 16 8)
      (arg.extractLsb' 24 8) (arg.extractLsb' 32 8)) ∧
    decode ⟨0x090, arg⟩ = .ok (.wrMdr1 (arg.extractLsb' 0 8) (arg.extractLsb' 8 8) (arg.extractLsb' 16 8)
      (arg.extractLsb' 24 8) (arg.extractLsb' 32 8) (arg.extractLsb' 40 8)) ∧
    decode ⟨0x098, arg⟩ = .ok (.wrDtr (arg.extractLsb' 0 32)) ∧
    decode ⟨0x0E0, arg⟩ = .ok .ldCntr ∧ decode ⟨0x0E8, arg⟩ = .ok .ldOtr ∧
    decode ⟨0x200, arg⟩ = .ok (.setSpeed (arg.extractLsb' 0 32))

/-- R98, R97: the words that decode to an operation are exactly the sixteen, whatever ARG holds; every other word has the verdict
ILLEGAL_REQUEST (the error of `decode`), among them every word of KIND 0b11, every INIT or SPEED word with a nonzero CMD, and every
BUS word whose CMD is not one of the 14 command bytes. -/
def Obligations.OnlyTheSixteenWordsDecode : Prop :=
  ∀ (req : ReqWord) (arg : ArgBundle),
    ((∃ i, decode ⟨req, arg⟩ = .ok i) ↔
      req ∈ [0x100#10, 0x008, 0x010, 0x020, 0x030, 0x048, 0x050, 0x070, 0x060, 0x068, 0x088, 0x090, 0x098, 0x0E0, 0x0E8,
        0x200]) ∧
    (req.extractLsb' 8 2 = 0b11#2 → ∃ c, decode ⟨req, arg⟩ = .error c) ∧
    (req.extractLsb' 8 2 = 0b01#2 ∨ req.extractLsb' 8 2 = 0b10#2 → req.extractLsb' 0 8 ≠ 0x00#8 →
      ∃ c, decode ⟨req, arg⟩ = .error c) ∧
    (req.extractLsb' 8 2 = 0b00#2 →
      req.extractLsb' 0 8 ∉ [0x08#8, 0x10, 0x20, 0x30, 0x48, 0x50, 0x60, 0x68, 0x70, 0x88, 0x90, 0x98, 0xE0, 0xE8] →
      ∃ c, decode ⟨req, arg⟩ = .error c)

/-- R87: "`Decode(Encode(op)) = op` for each of the 16", with every operand at every value. -/
def Obligations.DecodeOfEncodeIsTheInstruction : Prop :=
  ∀ i : Instr, decode (encode i) = .ok i

/-- R87: Encode is the inverse on the operations: a request that decodes to an operation carries that operation's word. -/
def Obligations.DecodedInstructionSpellsItsWord : Prop :=
  ∀ (r : Request) (i : Instr), decode r = .ok i → i.req = r.req

/-- R86: the ARG bits an operation does not read have no effect on what is decoded. -/
def Obligations.UnreadOperandBitsHaveNoEffect : Prop :=
  ∀ (req : ReqWord) (a b : ArgBundle),
    (req = 0x090#10 → a = b) →
    (req = 0x088#10 → a.extractLsb' 0 40 = b.extractLsb' 0 40) →
    (req = 0x098#10 ∨ req = 0x200#10 → a.extractLsb' 0 32 = b.extractLsb' 0 32) →
    decode ⟨req, a⟩ = decode ⟨req, b⟩

/-! Byte order and payloads -/

/-- R53: the bytes Serialize gives, most significant first, for each width. -/
def Obligations.SerializeSendsTheLowBytesMsbFirst : Prop :=
  ∀ v : Word,
    serialize v .four = [v.extractLsb' 24 8, v.extractLsb' 16 8, v.extractLsb' 8 8, v.extractLsb' 0 8] ∧
    serialize v .three = [v.extractLsb' 16 8, v.extractLsb' 8 8, v.extractLsb' 0 8] ∧
    serialize v .two = [v.extractLsb' 8 8, v.extractLsb' 0 8] ∧
    serialize v .one = [v.extractLsb' 0 8]

/-- R54: n received bytes assemble most significant byte first; the bytes above the n-th are zero, whatever the top bit of the
first byte. -/
def Obligations.DeserializeAssemblesMsbFirstWithoutSign : Prop :=
  ∀ a b c d : Byte,
    deserialize [a, b, c, d] = a ++ b ++ c ++ d ∧
    deserialize [b, c, d] = 0#8 ++ b ++ c ++ d ∧
    deserialize [c, d] = 0#16 ++ c ++ d ∧
    deserialize [d] = 0#24 ++ d

/-- R55: `Deserialize(Serialize(v, n), n) = v & (2^(8n) - 1)` for every v and n; the bits dropped raise no fault: WR_DTR of any
value completes with FAULT none. -/
def Obligations.WideWriteDropsTheHighBitsSilently : Prop :=
  (∀ (v : Word) (n : Width), deserialize (serialize v n) = v &&& BitVec.ofNat 32 (2 ^ (8 * n.bytes) - 1)) ∧
  (∀ (v : Word) (s : State), s.ready → ∃ t, exec (.wrDtr v) s = .next t ∧ t.fault = none ∧
    t.trace = s.trace ++ frameEvents s 0x98 (serialize v s.w))

/-- R52, R45: a byte goes over the wire most significant bit first. -/
def Obligations.ByteGoesOutMostSignificantBitFirst : Prop :=
  ∀ b : Byte, (wireBits b).length = 8 ∧ (∀ k, k < 8 → (wireBits b)[k]? = some (b.getLsbD (7 - k))) ∧
    (wireBits b).foldl (fun acc x => 2 * acc + x.toNat) 0 = b.toNat

/-- R93: once every operand has passed its range check, the payload is the OR of the operands, which equals their integer
sum. -/
def Obligations.AssembledPayloadIsTheSumOfItsFields : Prop :=
  (∀ q c x y f : Byte, WellFormed (.wrMdr0 q c x y f) = true →
    ∃ p, assembleMdr0 q c x y f = .ok p ∧ p = q ||| c ||| x ||| y ||| f ∧
      p.toNat = q.toNat + c.toNat + x.toNat + y.toNat + f.toNat) ∧
  (∀ m e x c b y : Byte, WellFormed (.wrMdr1 m e x c b y) = true →
    ∃ p, assembleMdr1 m e x c b y = .ok p ∧ p = m ||| e ||| x ||| c ||| b ||| y ∧
      p.toNat = m.toNat + e.toNat + x.toNat + c.toNat + b.toNat + y.toNat)

/-- R88, R90: each bit of a mode-register payload is the bit of the operand whose field it lies in; bit 3 of the MDR1 payload is
always 0. -/
def Obligations.PayloadFieldsAreTheOperands : Prop :=
  (∀ q c x y f p : Byte, assembleMdr0 q c x y f = .ok p →
    p &&& 0x03 = q ∧ p &&& 0x0C = c ∧ p &&& 0x30 = x ∧ p &&& 0x40 = y ∧ p &&& 0x80 = f) ∧
  (∀ m e x c b y p : Byte, assembleMdr1 m e x c b y = .ok p →
    p &&& 0x03 = m ∧ p &&& 0x04 = e ∧ p &&& 0x08 = 0 ∧ p &&& 0x10 = x ∧ p &&& 0x20 = c ∧ p &&& 0x40 = b ∧ p &&& 0x80 = y)

/-! The step -/

/-- R31, R64: when the next request decodes to an operation, a step takes it from the queue and runs exactly that operation. The
queue is the model's own (log entry 1). -/
def Obligations.StepRunsTheDecodedInstruction : Prop :=
  ∀ (s : State) (r : Request) (rest : List Request) (i : Instr),
    s.pending = r :: rest → decode r = .ok i → step s = exec i { s with pending := rest }

/-- R189: between requests an unfaulted block is idle and its state is kept. A step with no request waiting is the model's own
(log entry 1). -/
def Obligations.IdleStepKeepsTheState : Prop :=
  ∀ s : State, s.pending = [] → s.fault = none → step s = .next s

/-- R175, R177: a word that spells no operation records ILLEGAL_REQUEST and changes nothing else; from then on every step is
refused with the word. That recording and refusal are two steps is the model's choice (log entry 6). -/
def Obligations.IllegalWordIsRecordedAndThenRefused : Prop :=
  ∀ (s : State) (r : Request) (rest : List Request), s.accepts → s.pending = r :: rest →
    (∃ c, decode r = .error c) →
    ∃ t, step s = .next t ∧ t = { s with pending := rest, fault := some ⟨.illegalRequest, r.req, none⟩ } ∧
      step t = .refused (.illegalRequest r.req)

/-- R172, R182: the first check that fails decides the fault, in the order REQUEST_OVERLAP, ILLEGAL_REQUEST, NOT_INITIALIZED,
FIELD_RANGE at the lowest failing operand; a request that passes them all is performed by its rule and leaves FAULT none. -/
def Obligations.FirstFailingCheckDecidesTheFault : Prop :=
  ∀ (s : State) (r : Request) (rest : List Request), s.pending = r :: rest →
    (s.fault ≠ none → ∀ t, step s ≠ .next t) ∧
    (s.fault = none → s.frameOpen = true →
      step s = .next { s with pending := rest, fault := some ⟨.requestOverlap, r.req, none⟩ }) ∧
    (s.fault = none → s.frameOpen = false → (∃ c, decode r = .error c) →
      step s = .next { s with pending := rest, fault := some ⟨.illegalRequest, r.req, none⟩ }) ∧
    (∀ i, s.fault = none → s.frameOpen = false → decode r = .ok i → i.isBus = true → s.initDone = false →
      step s = .next { s with pending := rest, fault := some ⟨.notInitialized, r.req, none⟩ }) ∧
    (∀ i k v mask, s.fault = none → s.frameOpen = false → decode r = .ok i → (i.isBus = true → s.initDone = true) →
      i.maskedOperands[k]? = some (v, mask) → v &&& ~~~mask ≠ 0 →
      (∀ j u m, j < k → i.maskedOperands[j]? = some (u, m) → u &&& ~~~m = 0) →
      step s = .next { s with pending := rest, fault := some ⟨.fieldRange, r.req, some ⟨k, v⟩⟩ }) ∧
    (∀ i, s.fault = none → s.frameOpen = false → decode r = .ok i → (i.isBus = true → s.initDone = true) →
      (∀ p ∈ i.maskedOperands, p.1 &&& ~~~p.2 = 0) →
      ∃ t, step s = .next t ∧ exec i { s with pending := rest } = .next t ∧ t.fault = none ∧ t.pending = rest)

/-! Faults -/

/-- R179: while FAULT is not none the block takes no step and no operation runs, so no step clears FAULT; the state is no
successful end of a run. A new block (reset) has FAULT none. -/
def Obligations.FaultedBlockTakesNoStep : Prop :=
  (∀ s : State, s.fault ≠ none → (∀ t, step s ≠ .next t) ∧ (∀ i t, exec i s ≠ .next t) ∧ ¬ s.SuccessfulEnd) ∧
  ∀ (line : LineId) (hz : Word), (State.construct line hz).fault = none

/-- R179, R175: conversely the machine stops only because FAULT stands: with a fault that names the record, or, where the record
is ILLEGAL_REQUEST, with a refusal that names the word. That the stop is a fault that carries the record (log entry 5), and for
ILLEGAL_REQUEST a refusal that carries the word (log entry 6), is the model's choice. -/
def Obligations.MachineStopsOnlyOnAStandingFault : Prop :=
  ∀ s : State,
    (∀ r, step s = .refused r → ∃ f, s.fault = some f ∧ f.kind = .illegalRequest ∧ r = .illegalRequest f.req) ∧
    (∀ e, step s = .fault e → ∃ f, s.fault = some f ∧ f.kind ≠ .illegalRequest ∧ e = .standing f)

/-- R173, R112, R25: every bus operation takes NOT_INITIALIZED while INIT_DONE is false; INIT and SET_SPEED do not need it; INIT
alone sets INIT_DONE, and nothing but a new construction clears it. -/
def Obligations.BusOperationsNeedInit : Prop :=
  (∀ i : Instr, i.isBus = true → NeedsInit i i.req) ∧
  (∀ (i : Instr) (s : State), i.isBus = false → s.accepts → ∃ t, exec i s = .next t ∧ t.fault = none) ∧
  (∀ (i : Instr) (s t : State), exec i s = .next t →
    (t.initDone = true ↔ s.initDone = true ∨ (i = .init ∧ t.fault = none))) ∧
  ∀ (line : LineId) (hz : Word), (State.construct line hz).initDone = false

/-- R174: FIELD_RANGE records the lowest failing operand index and its value, against the masks the rule lists; nothing else
changes (R177). -/
def Obligations.FieldRangeNamesTheLowestFailingOperand : Prop :=
  (∀ (s : State) (q c x y f v mask : Byte) (k : Nat), s.ready →
    [q, c, x, y, f][k]? = some v → [0x03#8, 0x0C, 0x30, 0x40, 0x80][k]? = some mask → v &&& ~~~mask ≠ 0 →
    (∀ j u m, j < k → [q, c, x, y, f][j]? = some u → [0x03#8, 0x0C, 0x30, 0x40, 0x80][j]? = some m → u &&& ~~~m = 0) →
    exec (.wrMdr0 q c x y f) s = .next { s with fault := some ⟨.fieldRange, 0x088, some ⟨k, v⟩⟩ }) ∧
  (∀ (s : State) (bm e x c b y v mask : Byte) (k : Nat), s.ready →
    [bm, e, x, c, b, y][k]? = some v → [0x03#8, 0x04, 0x10, 0x20, 0x40, 0x80][k]? = some mask → v &&& ~~~mask ≠ 0 →
    (∀ j u m, j < k → [bm, e, x, c, b, y][j]? = some u → [0x03#8, 0x04, 0x10, 0x20, 0x40, 0x80][j]? = some m →
      u &&& ~~~m = 0) →
    exec (.wrMdr1 bm e x c b y) s = .next { s with fault := some ⟨.fieldRange, 0x090, some ⟨k, v⟩⟩ })

/-- R177: a request that fails a check leaves FAULT as a record of its own request word and changes nothing else: no event, no
response, every register kept. (`pending` loses the request: the queue is the model's own, log entry 1.) -/
def Obligations.FaultedRequestChangesOnlyFault : Prop :=
  (∀ (i : Instr) (s t : State), exec i s = .next t → t.fault ≠ none →
    s.fault = none ∧ ∃ k d, t = { s with fault := some ⟨k, i.req, d⟩ }) ∧
  (∀ s t : State, step s = .next t → t.fault ≠ none →
    ∃ r rest k d, s.pending = r :: rest ∧ t = { s with pending := rest, fault := some ⟨k, r.req, d⟩ })

/-! The operations, family by family: the word, the checks, and the whole effect -/

/-- R110, R111: INIT, also when INIT has run before. -/
def Obligations.InitConfiguresTheTransport : Prop :=
  (∀ arg, decode ⟨0x100, arg⟩ = .ok .init) ∧ GenericChecks .init 0x100 ∧
  ∀ s : State, s.accepts →
    exec .init s = .next { s with
      csN := .high
      busCfg := some ⟨s.speedPref, .msbFirst, .mode0⟩
      initDone := true
      trace := s.trace ++ [.cfgLine s.csLine, .des s.csLine, .cfg s.speedPref .msbFirst .mode0]
      responses := s.responses ++ [.unit] }

/-- R120 to R124: the four CLEAR operations. -/
def Obligations.ClearSendsItsCommandByteAlone : Prop :=
  ∀ i req cmd,
    (i, req, cmd) ∈ [(Instr.clrMdr0, 0x008#10, 0x08#8), (.clrMdr1, 0x010, 0x10), (.clrCntr, 0x020, 0x20),
      (.clrStr, 0x030, 0x30)] →
    (∀ arg, decode ⟨req, arg⟩ = .ok i) ∧ GenericChecks i req ∧ NeedsInit i req ∧
    ∀ s : State, s.ready →
      exec i s = .next { s with
        csN := .high
        trace := s.trace ++ [.sel s.csLine, .xchg cmd (s.reply s.exchanged), .des s.csLine]
        responses := s.responses ++ [.unit]
        exchanged := s.exchanged + 1 }

/-- R130 to R133: the three single-byte reads; the response is the byte received with the dummy byte. -/
def Obligations.ByteReadReturnsTheDummyExchange : Prop :=
  ∀ i req cmd,
    (i, req, cmd) ∈ [(Instr.rdMdr0, 0x048#10, 0x48#8), (.rdMdr1, 0x050, 0x50), (.rdStr, 0x070, 0x70)] →
    (∀ arg, decode ⟨req, arg⟩ = .ok i) ∧ GenericChecks i req ∧ NeedsInit i req ∧
    ∀ s : State, s.ready →
      exec i s = .next { s with
        csN := .high
        trace := s.trace ++ [.sel s.csLine, .xchg cmd (s.reply s.exchanged),
          .xchg 0x00 (s.reply (s.exchanged + 1)), .des s.csLine]
        responses := s.responses ++ [.byte (s.reply (s.exchanged + 1))]
        exchanged := s.exchanged + 2 }

/-- R134 to R136: the two wide reads; W dummy bytes, the W bytes received assembled most significant byte first. -/
def Obligations.WideReadReturnsTheReceivedBytes : Prop :=
  ∀ i req cmd,
    (i, req, cmd) ∈ [(Instr.rdCntr, 0x060#10, 0x60#8), (.rdOtr, 0x068, 0x68)] →
    (∀ arg, decode ⟨req, arg⟩ = .ok i) ∧ GenericChecks i req ∧ NeedsInit i req ∧
    ∀ s : State, s.ready →
      exec i s = .next { s with
        csN := .high
        trace := s.trace ++ frameEvents s cmd (List.replicate s.w.bytes 0x00)
        responses := s.responses ++ [.wide (deserialize (s.repliesFrom (s.exchanged + 1) s.w.bytes))]
        exchanged := s.exchanged + 1 + s.w.bytes }

/-- R145, R146: WR_MDR0 with its operands in their fields sends their OR; with an operand outside its field it takes FIELD_RANGE
and changes nothing else. -/
def Obligations.WriteMdr0SendsTheAssembledByte : Prop :=
  (∀ arg, decode ⟨0x088, arg⟩ = .ok (.wrMdr0 (argByte arg 0) (argByte arg 1) (argByte arg 2) (argByte arg 3)
    (argByte arg 4))) ∧
  ∀ q c x y f : Byte,
  GenericChecks (.wrMdr0 q c x y f) 0x088 ∧ NeedsInit (.wrMdr0 q c x y f) 0x088 ∧
  ∀ s : State, s.ready →
    (WellFormed (.wrMdr0 q c x y f) = true →
      exec (.wrMdr0 q c x y f) s = .next { s with
        csN := .high
        trace := s.trace ++ [.sel s.csLine, .xchg 0x88 (s.reply s.exchanged),
          .xchg (q ||| c ||| x ||| y ||| f) (s.reply (s.exchanged + 1)), .des s.csLine]
        responses := s.responses ++ [.unit]
        exchanged := s.exchanged + 2 }) ∧
    (WellFormed (.wrMdr0 q c x y f) = false →
      ∃ d, exec (.wrMdr0 q c x y f) s = .next { s with fault := some ⟨.fieldRange, 0x088, some d⟩ })

/-- R147, R91: WR_MDR1 with its operands in their fields sends their OR and sets W to 4, 3, 2 or 1 for byte mode 0x00, 0x01, 0x02
or 0x03; with an operand outside its field it takes FIELD_RANGE and leaves W, as everything else, unchanged. -/
def Obligations.WriteMdr1SetsTheTransferWidth : Prop :=
  (∀ arg, decode ⟨0x090, arg⟩ = .ok (.wrMdr1 (argByte arg 0) (argByte arg 1) (argByte arg 2) (argByte arg 3)
    (argByte arg 4) (argByte arg 5))) ∧
  ∀ bm e x c b y : Byte,
  GenericChecks (.wrMdr1 bm e x c b y) 0x090 ∧ NeedsInit (.wrMdr1 bm e x c b y) 0x090 ∧
  ∀ s : State, s.ready →
    (∀ n : Width, (bm, n) ∈ [(0x00#8, Width.four), (0x01, .three), (0x02, .two), (0x03, .one)] →
      WellFormed (.wrMdr1 bm e x c b y) = true →
      exec (.wrMdr1 bm e x c b y) s = .next { s with
        w := n
        csN := .high
        trace := s.trace ++ [.sel s.csLine, .xchg 0x90 (s.reply s.exchanged),
          .xchg (bm ||| e ||| x ||| c ||| b ||| y) (s.reply (s.exchanged + 1)), .des s.csLine]
        responses := s.responses ++ [.unit]
        exchanged := s.exchanged + 2 }) ∧
    (WellFormed (.wrMdr1 bm e x c b y) = false →
      ∃ d, exec (.wrMdr1 bm e x c b y) s = .next { s with fault := some ⟨.fieldRange, 0x090, some d⟩ })

/-- R148, R94: WR_DTR sends the low W bytes of its value, most significant byte first, for every value. -/
def Obligations.WriteDtrSendsTheLowBytes : Prop :=
  (∀ arg, decode ⟨0x098, arg⟩ = .ok (.wrDtr (arg.extractLsb' 0 32))) ∧
  ∀ v : Word,
  GenericChecks (.wrDtr v) 0x098 ∧ NeedsInit (.wrDtr v) 0x098 ∧
  ∀ s : State, s.ready →
    exec (.wrDtr v) s = .next { s with
      csN := .high
      trace := s.trace ++ frameEvents s 0x98 (serialize v s.w)
      responses := s.responses ++ [.unit]
      exchanged := s.exchanged + 1 + s.w.bytes }

/-- R160 to R162: the two LOAD operations, whether or not DTR was written. -/
def Obligations.LoadSendsItsCommandByteAlone : Prop :=
  ∀ i req cmd,
    (i, req, cmd) ∈ [(Instr.ldCntr, 0x0E0#10, 0xE0#8), (.ldOtr, 0x0E8, 0xE8)] →
    (∀ arg, decode ⟨req, arg⟩ = .ok i) ∧ GenericChecks i req ∧ NeedsInit i req ∧
    ∀ s : State, s.ready →
      exec i s = .next { s with
        csN := .high
        trace := s.trace ++ [.sel s.csLine, .xchg cmd (s.reply s.exchanged), .des s.csLine]
        responses := s.responses ++ [.unit]
        exchanged := s.exchanged + 1 }

/-- R165: SET_SPEED stores any 32-bit value and changes nothing else but the response, before INIT and after it. -/
def Obligations.SetSpeedStoresThePreferenceOnly : Prop :=
  (∀ arg, decode ⟨0x200, arg⟩ = .ok (.setSpeed (arg.extractLsb' 0 32))) ∧
  ∀ hz : Word, GenericChecks (.setSpeed hz) 0x200 ∧
  ∀ s : State, s.accepts →
    exec (.setSpeed hz) s = .next { s with speedPref := hz, responses := s.responses ++ [.unit] }

/-! Frames of the registers of the block -/

/-- R21: W is written only by WR_MDR1. -/
def Obligations.OnlyWriteMdr1ChangesTheWidth : Prop :=
  ∀ (i : Instr) (s t : State), exec i s = .next t → t.w ≠ s.w →
    ∃ bm e x c b y, i = .wrMdr1 bm e x c b y ∧ t.w = widthOf (bm.extractLsb' 0 2)

/-- R112, R23, R61: INIT alone changes INIT_DONE and BUS_CFG, SET_SPEED alone changes SPEED_PREF, and no operation changes
CS_LINE, the waiting requests or the chip's fixed replies. -/
def Obligations.OnlyInitAndSetSpeedChangeTheBusSettings : Prop :=
  ∀ (i : Instr) (s t : State), exec i s = .next t →
    (t.initDone ≠ s.initDone → i = .init) ∧ (t.busCfg ≠ s.busCfg → i = .init) ∧
    (t.speedPref ≠ s.speedPref → i = .setSpeed t.speedPref) ∧
    t.csLine = s.csLine ∧ t.pending = s.pending ∧ t.replies = s.replies

/-- R28: TRACE only ever grows, and every event that names a line names the block's own. -/
def Obligations.TraceOnlyGrows : Prop :=
  ∀ s t : State, step s = .next t → ∃ es, t.trace = s.trace ++ es ∧
    ∀ l, (.cfgLine l ∈ es ∨ .sel l ∈ es ∨ .des l ∈ es) → l = s.csLine

/-- R29: an accepted request returns exactly one response, of 8 bits for the three single-byte reads, of 32 bits with zeros
above the low W bytes for the two wide reads, and `unit` for every other; a faulted request returns none. -/
def Obligations.AcceptedRequestReturnsOneResponse : Prop :=
  (∀ (i : Instr) (s t : State), exec i s = .next t → t.fault = none →
    ∃ r, t.responses = s.responses ++ [r] ∧
      ((i = .rdMdr0 ∨ i = .rdMdr1 ∨ i = .rdStr) → ∃ v, r = .byte v) ∧
      ((i = .rdCntr ∨ i = .rdOtr) → ∃ v, r = .wide v ∧ v.toNat < 2 ^ (8 * s.w.bytes)) ∧
      (i ≠ .rdMdr0 → i ≠ .rdMdr1 → i ≠ .rdStr → i ≠ .rdCntr → i ≠ .rdOtr → r = .unit)) ∧
  (∀ s t : State, step s = .next t → t.fault ≠ none → t.responses = s.responses)

/-- R48, R50, R59, R96: every bus operation whose operands lie in their fields completes, and its events are one bracket: one
SEL, then one exchange more than its payload count of Table 20-3, then one DES, with CS_N HIGH after it. -/
def Obligations.BusOperationIsOneWholeBracket : Prop :=
  ∀ (i : Instr) (s : State), i.isBus = true → WellFormed i = true → s.ready →
    ∃ t xs n, exec i s = .next t ∧ t.fault = none ∧ t.csN = .high ∧ t.frameOpen = false ∧
      t.trace = s.trace ++ ([.sel s.csLine] ++ xs ++ [.des s.csLine]) ∧
      (∀ e ∈ xs, ∃ out inn, e = .xchg out inn) ∧
      payloadCount s.w (i.req.extractLsb' 0 8) = some n ∧ xs.length = 1 + n

/-- R62: requests are never merged or elided: the same bus operation issued twice appends its own complete frame each time, SEL,
its command byte, the same payload bytes (as many as Table 20-3 gives) and DES, each exchange with a draw of its own. -/
def Obligations.RepeatedRequestEmitsItsFrameAgain : Prop :=
  ∀ (i : Instr) (s : State), i.isBus = true → WellFormed i = true → s.ready →
    ∃ t u tx, exec i s = .next t ∧ t.fault = none ∧ exec i t = .next u ∧ u.fault = none ∧
      payloadCount s.w (i.req.extractLsb' 0 8) = some tx.length ∧
      t.trace = s.trace ++ frameEvents s (i.req.extractLsb' 0 8) tx ∧
      u.trace = t.trace ++ frameEvents t (i.req.extractLsb' 0 8) tx

/-- R213, R45, R59: a bus operation that completes takes eight clock periods for its command byte and for each payload byte, at
the configured rate; INIT and SET_SPEED exchange no byte. What the transport adds is not modelled (log entry 15). -/
def Obligations.FrameTakesEightClockPeriodsPerByte : Prop :=
  ∀ (i : Instr) (s t : State), exec i s = .next t → t.fault = none →
    (i.isBus = true → ∃ n, payloadCount s.w (i.req.extractLsb' 0 8) = some n ∧
      clockPeriods (newEvents s t) = 8 * (1 + n)) ∧
    (i.isBus = false → clockPeriods (newEvents s t) = 0)

/-! Rules about sequences of requests -/

/-- R166, R208: a SET_SPEED after INIT leaves BUS_CFG as it is through every later request but INIT, and the next INIT applies
it; a SET_SPEED before the first INIT sets the speed that INIT applies. -/
def Obligations.SetSpeedWaitsForTheNextInit : Prop :=
  (∀ (s : State) (hz : Word) (is : List Instr), s.ready →
    (∀ i ∈ is, i ≠ .init ∧ (∀ h, i ≠ .setSpeed h) ∧ WellFormed i = true) →
    s.pending = encode (.setSpeed hz) :: (is.map encode ++ [encode .init]) →
    ∃ t u, Host.Core.run Sys2Proof.core (is.length + 1) s = .next t ∧ t.busCfg = s.busCfg ∧ t.speedPref = hz ∧
      Host.Core.run Sys2Proof.core (is.length + 2) s = .next u ∧ u.busCfg = some ⟨hz, .msbFirst, .mode0⟩) ∧
  (∀ (s : State) (hz : Word), s.accepts → s.initDone = false → s.pending = [encode (.setSpeed hz), encode .init] →
    ∃ t u, step s = .next t ∧ t.busCfg = s.busCfg ∧ t.trace = s.trace ∧
      step t = .next u ∧ u.busCfg = some ⟨hz, .msbFirst, .mode0⟩)

/-- R64, R207: a completed WR_MDR1 keeps the history before it, TRACE and responses, and adds its own; the next wide access, read
or write, then moves the 4, 3, 2 or 1 bytes that the new byte mode selects, whatever W was before. -/
def Obligations.WidthChangeReachesTheNextWideAccess : Prop :=
  ∀ (s t : State) (bm e x c b y : Byte), s.ready → WellFormed (.wrMdr1 bm e x c b y) = true →
    exec (.wrMdr1 bm e x c b y) s = .next t →
    t.trace = s.trace ++ frameEvents s 0x90 [bm ||| e ||| x ||| c ||| b ||| y] ∧
    t.responses = s.responses ++ [.unit] ∧
    (∀ i cmd, (i, cmd) ∈ [(Instr.rdCntr, 0x60#8), (.rdOtr, 0x68)] →
      ∃ u, exec i t = .next u ∧
        u.trace = t.trace ++ frameEvents t cmd (List.replicate (4 - bm.toNat) 0x00) ∧
        u.responses = t.responses ++ [.wide (deserialize (t.repliesFrom (t.exchanged + 1) (4 - bm.toNat)))]) ∧
    (∀ v : Word, ∃ u, exec (.wrDtr v) t = .next u ∧
      u.trace = t.trace ++ frameEvents t 0x98
        ((List.range (4 - bm.toNat)).map fun k => v.extractLsb' (8 * (4 - bm.toNat - 1 - k)) 8) ∧
      u.responses = t.responses ++ [.unit])

/-- Derived from R148, R135, R55 (the source's round trip E2, E3): if the bytes the chip returns to a wide read are those WR_DTR
sent, the read returns the low W bytes of the value written. -/
def Obligations.EchoedDtrBytesReadBackTheLowBytes : Prop :=
  ∀ (s t : State) (v : Word), s.ready → exec (.wrDtr v) s = .next t →
    t.repliesFrom (t.exchanged + 1) t.w.bytes = serialize v s.w →
    ∃ u, exec .rdCntr t = .next u ∧
      u.responses = t.responses ++ [.wide (v &&& BitVec.ofNat 32 (2 ^ (8 * s.w.bytes) - 1))]

/-- R71, R61, R132, R51: what the block does and sends never depends on what the chip returns. `State.EqualButReplies` is kept by
every step: two blocks that differ at most in what the chip has returned and will return take the same step, to two such blocks.
How the replies stand in the state is the model's choice (log entry 3). -/
def Obligations.NothingSentDependsOnTheReplies : Prop :=
  ∀ s s' t : State, s.EqualButReplies s' → step s = .next t → ∃ t', step s' = .next t' ∧ t.EqualButReplies t'

/-! The assembler (outside the step, log entry 14) -/

/-- R100, R103, Table 30-8: for each register form and each register, the form assembles exactly if the register is in the form's
list, and then to the operation of its (class, register) pair; on every other register it is an assembly error. The assembler's
place outside the step is the model's choice (log entry 14). -/
def Obligations.RegisterFormsSpellTheirPair : Prop :=
  ∀ name c admitted,
    (name, c, admitted) ∈ [("clear", OpClass.clear, [Target.mdr0, .mdr1, .cntr, .str]),
      ("read_byte", .read, [.mdr0, .mdr1, .str]), ("read_wide", .read, [.cntr, .otr]), ("load", .load, [.cntr, .otr])] →
    ∀ (register : String) (t : Target),
      (register, t) ∈ [("MDR0", .mdr0), ("MDR1", .mdr1), ("DTR", .dtr), ("CNTR", .cntr), ("OTR", .otr), ("STR", .str)] →
      (t ∈ admitted → ∃ i, assembleForm name [register.toList] = .ok i ∧ decode ⟨busReq c t, 0⟩ = .ok i) ∧
      (t ∉ admitted → assembleForm name [register.toList] = .error .registerNotAdmitted)

/-- R101, R71: the annotation of a read line fixes the draws after the command byte, so it fixes the value the read returns. -/
def Obligations.AnnotationFixesTheReadResult : Prop :=
  (∀ (i : Instr) (s : State) (b : Byte), i ∈ [.rdMdr0, .rdMdr1, .rdStr] → s.ready → s.pending = [] →
    ∃ t, step (issueLine ⟨i, some [b]⟩ s) = .next t ∧ t.responses = s.responses ++ [.byte b]) ∧
  (∀ (i : Instr) (s : State) (bs : List Byte), i ∈ [.rdCntr, .rdOtr] → s.ready → s.pending = [] → bs.length = s.w.bytes →
    ∃ t, step (issueLine ⟨i, some bs⟩ s) = .next t ∧ t.responses = s.responses ++ [.wide (deserialize bs)])

/-! Invariants -/

/-- Table 70-1: a block right after construction is consistent with its empty history. -/
def Obligations.ConstructionIsConsistent : Prop :=
  ∀ (line : LineId) (hz : Word), (State.construct line hz).Consistent

/-- R20, R21, R24, R26, R28, R48, R49, R50, R59, R84, R97: every step keeps TRACE a legal history of whole frames and INIT
sequences, from which W, BUS_CFG, CS_N and the results of the reads can be read off. -/
def Obligations.StepKeepsTheHistoryConsistent : Prop :=
  ∀ s t : State, s.Consistent → step s = .next t → t.Consistent

/-- Table 70-1: a block right after construction has no fault record to be false. -/
def Obligations.ConstructionHasATrueFaultRecord : Prop :=
  ∀ (line : LineId) (hz : Word), (State.construct line hz).FaultTrue

/-- R171, R173, R174, R175, R176: a fault record that a step leaves says what is so. -/
def Obligations.StepLeavesATrueFaultRecord : Prop :=
  ∀ s t : State, s.FaultTrue → step s = .next t → t.FaultTrue

/-- R215, R172: from every consistent state with no fault and INIT done, a queue of well-formed requests runs to a successful
end, with one response for each request. -/
def Obligations.WellFormedRequestsRunToASuccessfulEnd : Prop :=
  ∀ s : State, s.Consistent → s.ready → (∀ r ∈ s.pending, goodRequest r = true) →
    ∃ t, Host.Core.run Sys2Proof.core s.pending.length s = .next t ∧ t.SuccessfulEnd ∧ t.Consistent ∧
      t.responses.length = s.responses.length + s.pending.length

/-- R203: a block just constructed, given SET_SPEED, INIT and then well-formed requests, runs to a successful end. -/
def Obligations.BootOrderRunsToASuccessfulEnd : Prop :=
  ∀ (line : LineId) (hz speed : Word) (rs : List Request), (∀ r ∈ rs, goodRequest r = true) →
    ∃ t, Host.Core.run Sys2Proof.core (rs.length + 2)
        { State.construct line hz with pending := encode (.setSpeed speed) :: encode .init :: rs } = .next t ∧
      t.SuccessfulEnd ∧ t.responses.length = rs.length + 2

/-! Several blocks on one bus -/

/-- R8, R187, R70: blocks are constructed on one bus exactly where there is at least one of them and each has a line of its own,
and then they share a legal, empty history. The bus of several blocks is the model's own layer (log entry 13). -/
def Obligations.ConstructedBlocksShareALegalBus : Prop :=
  ∀ handles : List (LineId × Word),
    ((∃ b, Bus.construct handles = some b) ↔ handles ≠ [] ∧ (handles.map Prod.fst).Nodup) ∧
    (∀ b, Bus.construct handles = some b →
      b.Legal ∧ b.nDev = handles.length ∧ b.history = [] ∧
        b.blocks = handles.map fun h => State.construct h.1 h.2)

/-- R70, R49, R8: whichever block moves next, the shared history stays an interleaving of whole frames and INIT sequences, each
block's events in its own order; and N_DEV stays as it is. The bus of several blocks is the model's own layer (log entry 13). -/
def Obligations.EveryScheduleKeepsTheSharedBusLegal : Prop :=
  ∀ (ks : List Nat) (b : Bus), b.Legal → (Bus.run ks b).Legal ∧ (Bus.run ks b).nDev = b.nDev

/-- R35, R187: blocks share no state but the bus: a move of one block leaves every other block as it was, no move changes a
block's line, and where a block goes and which events it adds to the bus depend on that block's own state alone. The bus of
several blocks is the model's own layer (log entry 13). -/
def Obligations.BlocksShareNoState : Prop :=
  ∀ (k : Nat) (b : Bus),
    (∀ j, j ≠ k → (Bus.stepOf k b).blocks[j]? = b.blocks[j]?) ∧
    (Bus.stepOf k b).blocks.map State.csLine = b.blocks.map State.csLine ∧
    (∀ b' : Bus, b'.blocks[k]? = b.blocks[k]? →
      (Bus.stepOf k b').blocks[k]? = (Bus.stepOf k b).blocks[k]? ∧
      ∃ es, (Bus.stepOf k b).history = b.history ++ es ∧ (Bus.stepOf k b').history = b'.history ++ es)
end

