-- ==== Sys2Proof/Laws/State.lean ====
section
/-!
SUPPORT. What each update of the state leaves in each field: one lemma per field and update.
-/
namespace Sys2Proof.Machine

/-! Select (R43) -/

@[simp] theorem select_w (s : State) : (select s).w = s.w := rfl
@[simp] theorem select_speedPref (s : State) : (select s).speedPref = s.speedPref := rfl
@[simp] theorem select_busCfg (s : State) : (select s).busCfg = s.busCfg := rfl
@[simp] theorem select_csN (s : State) : (select s).csN = .low := rfl
@[simp] theorem select_initDone (s : State) : (select s).initDone = s.initDone := rfl
@[simp] theorem select_fault (s : State) : (select s).fault = s.fault := rfl
@[simp] theorem select_trace (s : State) : (select s).trace = s.trace ++ [.sel s.csLine] := rfl
@[simp] theorem select_frameOpen (s : State) : (select s).frameOpen = true := rfl
@[simp] theorem select_csLine (s : State) : (select s).csLine = s.csLine := rfl
@[simp] theorem select_pending (s : State) : (select s).pending = s.pending := rfl
@[simp] theorem select_responses (s : State) : (select s).responses = s.responses := rfl
@[simp] theorem select_replies (s : State) : (select s).replies = s.replies := rfl
@[simp] theorem select_exchanged (s : State) : (select s).exchanged = s.exchanged := rfl

/-! Deselect (R44) -/

@[simp] theorem deselect_w (s : State) : (deselect s).w = s.w := rfl
@[simp] theorem deselect_speedPref (s : State) : (deselect s).speedPref = s.speedPref := rfl
@[simp] theorem deselect_busCfg (s : State) : (deselect s).busCfg = s.busCfg := rfl
@[simp] theorem deselect_csN (s : State) : (deselect s).csN = .high := rfl
@[simp] theorem deselect_initDone (s : State) : (deselect s).initDone = s.initDone := rfl
@[simp] theorem deselect_fault (s : State) : (deselect s).fault = s.fault := rfl
@[simp] theorem deselect_trace (s : State) : (deselect s).trace = s.trace ++ [.des s.csLine] := rfl
@[simp] theorem deselect_frameOpen (s : State) : (deselect s).frameOpen = false := rfl
@[simp] theorem deselect_csLine (s : State) : (deselect s).csLine = s.csLine := rfl
@[simp] theorem deselect_pending (s : State) : (deselect s).pending = s.pending := rfl
@[simp] theorem deselect_responses (s : State) : (deselect s).responses = s.responses := rfl
@[simp] theorem deselect_replies (s : State) : (deselect s).replies = s.replies := rfl
@[simp] theorem deselect_exchanged (s : State) : (deselect s).exchanged = s.exchanged := rfl

/-! Exchange (R45) -/

@[simp] theorem exchange_w (out : Byte) (s : State) : ((exchange out s).2).w = s.w := rfl
@[simp] theorem exchange_speedPref (out : Byte) (s : State) : ((exchange out s).2).speedPref = s.speedPref := rfl
@[simp] theorem exchange_busCfg (out : Byte) (s : State) : ((exchange out s).2).busCfg = s.busCfg := rfl
@[simp] theorem exchange_csN (out : Byte) (s : State) : ((exchange out s).2).csN = s.csN := rfl
@[simp] theorem exchange_initDone (out : Byte) (s : State) : ((exchange out s).2).initDone = s.initDone := rfl
@[simp] theorem exchange_fault (out : Byte) (s : State) : ((exchange out s).2).fault = s.fault := rfl
@[simp] theorem exchange_trace (out : Byte) (s : State) : ((exchange out s).2).trace = s.trace ++ [.xchg out (s.reply s.exchanged)] := rfl
@[simp] theorem exchange_frameOpen (out : Byte) (s : State) : ((exchange out s).2).frameOpen = s.frameOpen := rfl
@[simp] theorem exchange_csLine (out : Byte) (s : State) : ((exchange out s).2).csLine = s.csLine := rfl
@[simp] theorem exchange_pending (out : Byte) (s : State) : ((exchange out s).2).pending = s.pending := rfl
@[simp] theorem exchange_responses (out : Byte) (s : State) : ((exchange out s).2).responses = s.responses := rfl
@[simp] theorem exchange_replies (out : Byte) (s : State) : ((exchange out s).2).replies = s.replies := rfl
@[simp] theorem exchange_exchanged (out : Byte) (s : State) : ((exchange out s).2).exchanged = s.exchanged + 1 := rfl

/-! Configure (R46) -/

@[simp] theorem configure_w (hz : Word) (order : BitOrder) (mode : ClockMode) (s : State) : (configure hz order mode s).w = s.w := rfl
@[simp] theorem configure_speedPref (hz : Word) (order : BitOrder) (mode : ClockMode) (s : State) : (configure hz order mode s).speedPref = s.speedPref := rfl
@[simp] theorem configure_busCfg (hz : Word) (order : BitOrder) (mode : ClockMode) (s : State) : (configure hz order mode s).busCfg = some ⟨hz, order, mode⟩ := rfl
@[simp] theorem configure_csN (hz : Word) (order : BitOrder) (mode : ClockMode) (s : State) : (configure hz order mode s).csN = s.csN := rfl
@[simp] theorem configure_initDone (hz : Word) (order : BitOrder) (mode : ClockMode) (s : State) : (configure hz order mode s).initDone = s.initDone := rfl
@[simp] theorem configure_fault (hz : Word) (order : BitOrder) (mode : ClockMode) (s : State) : (configure hz order mode s).fault = s.fault := rfl
@[simp] theorem configure_trace (hz : Word) (order : BitOrder) (mode : ClockMode) (s : State) : (configure hz order mode s).trace = s.trace ++ [.cfg hz order mode] := rfl
@[simp] theorem configure_frameOpen (hz : Word) (order : BitOrder) (mode : ClockMode) (s : State) : (configure hz order mode s).frameOpen = s.frameOpen := rfl
@[simp] theorem configure_csLine (hz : Word) (order : BitOrder) (mode : ClockMode) (s : State) : (configure hz order mode s).csLine = s.csLine := rfl
@[simp] theorem configure_pending (hz : Word) (order : BitOrder) (mode : ClockMode) (s : State) : (configure hz order mode s).pending = s.pending := rfl
@[simp] theorem configure_responses (hz : Word) (order : BitOrder) (mode : ClockMode) (s : State) : (configure hz order mode s).responses = s.responses := rfl
@[simp] theorem configure_replies (hz : Word) (order : BitOrder) (mode : ClockMode) (s : State) : (configure hz order mode s).replies = s.replies := rfl
@[simp] theorem configure_exchanged (hz : Word) (order : BitOrder) (mode : ClockMode) (s : State) : (configure hz order mode s).exchanged = s.exchanged := rfl

/-! ConfigureLineOutput (R47) -/

@[simp] theorem configureLineOutput_w (s : State) : (configureLineOutput s).w = s.w := rfl
@[simp] theorem configureLineOutput_speedPref (s : State) : (configureLineOutput s).speedPref = s.speedPref := rfl
@[simp] theorem configureLineOutput_busCfg (s : State) : (configureLineOutput s).busCfg = s.busCfg := rfl
@[simp] theorem configureLineOutput_csN (s : State) : (configureLineOutput s).csN = s.csN := rfl
@[simp] theorem configureLineOutput_initDone (s : State) : (configureLineOutput s).initDone = s.initDone := rfl
@[simp] theorem configureLineOutput_fault (s : State) : (configureLineOutput s).fault = s.fault := rfl
@[simp] theorem configureLineOutput_trace (s : State) : (configureLineOutput s).trace = s.trace ++ [.cfgLine s.csLine] := rfl
@[simp] theorem configureLineOutput_frameOpen (s : State) : (configureLineOutput s).frameOpen = s.frameOpen := rfl
@[simp] theorem configureLineOutput_csLine (s : State) : (configureLineOutput s).csLine = s.csLine := rfl
@[simp] theorem configureLineOutput_pending (s : State) : (configureLineOutput s).pending = s.pending := rfl
@[simp] theorem configureLineOutput_responses (s : State) : (configureLineOutput s).responses = s.responses := rfl
@[simp] theorem configureLineOutput_replies (s : State) : (configureLineOutput s).replies = s.replies := rfl
@[simp] theorem configureLineOutput_exchanged (s : State) : (configureLineOutput s).exchanged = s.exchanged := rfl

/-! respond (R29) -/

@[simp] theorem respond_w (v : Response) (s : State) : (respond v s).w = s.w := rfl
@[simp] theorem respond_speedPref (v : Response) (s : State) : (respond v s).speedPref = s.speedPref := rfl
@[simp] theorem respond_busCfg (v : Response) (s : State) : (respond v s).busCfg = s.busCfg := rfl
@[simp] theorem respond_csN (v : Response) (s : State) : (respond v s).csN = s.csN := rfl
@[simp] theorem respond_initDone (v : Response) (s : State) : (respond v s).initDone = s.initDone := rfl
@[simp] theorem respond_fault (v : Response) (s : State) : (respond v s).fault = s.fault := rfl
@[simp] theorem respond_trace (v : Response) (s : State) : (respond v s).trace = s.trace := rfl
@[simp] theorem respond_frameOpen (v : Response) (s : State) : (respond v s).frameOpen = s.frameOpen := rfl
@[simp] theorem respond_csLine (v : Response) (s : State) : (respond v s).csLine = s.csLine := rfl
@[simp] theorem respond_pending (v : Response) (s : State) : (respond v s).pending = s.pending := rfl
@[simp] theorem respond_responses (v : Response) (s : State) : (respond v s).responses = s.responses ++ [v] := rfl
@[simp] theorem respond_replies (v : Response) (s : State) : (respond v s).replies = s.replies := rfl
@[simp] theorem respond_exchanged (v : Response) (s : State) : (respond v s).exchanged = s.exchanged := rfl

/-! W <- n (R147) -/

@[simp] theorem setWidth_w (n : Width) (s : State) : (setWidth n s).w = n := rfl
@[simp] theorem setWidth_speedPref (n : Width) (s : State) : (setWidth n s).speedPref = s.speedPref := rfl
@[simp] theorem setWidth_busCfg (n : Width) (s : State) : (setWidth n s).busCfg = s.busCfg := rfl
@[simp] theorem setWidth_csN (n : Width) (s : State) : (setWidth n s).csN = s.csN := rfl
@[simp] theorem setWidth_initDone (n : Width) (s : State) : (setWidth n s).initDone = s.initDone := rfl
@[simp] theorem setWidth_fault (n : Width) (s : State) : (setWidth n s).fault = s.fault := rfl
@[simp] theorem setWidth_trace (n : Width) (s : State) : (setWidth n s).trace = s.trace := rfl
@[simp] theorem setWidth_frameOpen (n : Width) (s : State) : (setWidth n s).frameOpen = s.frameOpen := rfl
@[simp] theorem setWidth_csLine (n : Width) (s : State) : (setWidth n s).csLine = s.csLine := rfl
@[simp] theorem setWidth_pending (n : Width) (s : State) : (setWidth n s).pending = s.pending := rfl
@[simp] theorem setWidth_responses (n : Width) (s : State) : (setWidth n s).responses = s.responses := rfl
@[simp] theorem setWidth_replies (n : Width) (s : State) : (setWidth n s).replies = s.replies := rfl
@[simp] theorem setWidth_exchanged (n : Width) (s : State) : (setWidth n s).exchanged = s.exchanged := rfl

/-! SPEED_PREF <- hz (R165) -/

@[simp] theorem setSpeedPref_w (hz : Word) (s : State) : (setSpeedPref hz s).w = s.w := rfl
@[simp] theorem setSpeedPref_speedPref (hz : Word) (s : State) : (setSpeedPref hz s).speedPref = hz := rfl
@[simp] theorem setSpeedPref_busCfg (hz : Word) (s : State) : (setSpeedPref hz s).busCfg = s.busCfg := rfl
@[simp] theorem setSpeedPref_csN (hz : Word) (s : State) : (setSpeedPref hz s).csN = s.csN := rfl
@[simp] theorem setSpeedPref_initDone (hz : Word) (s : State) : (setSpeedPref hz s).initDone = s.initDone := rfl
@[simp] theorem setSpeedPref_fault (hz : Word) (s : State) : (setSpeedPref hz s).fault = s.fault := rfl
@[simp] theorem setSpeedPref_trace (hz : Word) (s : State) : (setSpeedPref hz s).trace = s.trace := rfl
@[simp] theorem setSpeedPref_frameOpen (hz : Word) (s : State) : (setSpeedPref hz s).frameOpen = s.frameOpen := rfl
@[simp] theorem setSpeedPref_csLine (hz : Word) (s : State) : (setSpeedPref hz s).csLine = s.csLine := rfl
@[simp] theorem setSpeedPref_pending (hz : Word) (s : State) : (setSpeedPref hz s).pending = s.pending := rfl
@[simp] theorem setSpeedPref_responses (hz : Word) (s : State) : (setSpeedPref hz s).responses = s.responses := rfl
@[simp] theorem setSpeedPref_replies (hz : Word) (s : State) : (setSpeedPref hz s).replies = s.replies := rfl
@[simp] theorem setSpeedPref_exchanged (hz : Word) (s : State) : (setSpeedPref hz s).exchanged = s.exchanged := rfl

/-! INIT_DONE <- true (R110) -/

@[simp] theorem setInitDone_w (s : State) : (setInitDone s).w = s.w := rfl
@[simp] theorem setInitDone_speedPref (s : State) : (setInitDone s).speedPref = s.speedPref := rfl
@[simp] theorem setInitDone_busCfg (s : State) : (setInitDone s).busCfg = s.busCfg := rfl
@[simp] theorem setInitDone_csN (s : State) : (setInitDone s).csN = s.csN := rfl
@[simp] theorem setInitDone_initDone (s : State) : (setInitDone s).initDone = true := rfl
@[simp] theorem setInitDone_fault (s : State) : (setInitDone s).fault = s.fault := rfl
@[simp] theorem setInitDone_trace (s : State) : (setInitDone s).trace = s.trace := rfl
@[simp] theorem setInitDone_frameOpen (s : State) : (setInitDone s).frameOpen = s.frameOpen := rfl
@[simp] theorem setInitDone_csLine (s : State) : (setInitDone s).csLine = s.csLine := rfl
@[simp] theorem setInitDone_pending (s : State) : (setInitDone s).pending = s.pending := rfl
@[simp] theorem setInitDone_responses (s : State) : (setInitDone s).responses = s.responses := rfl
@[simp] theorem setInitDone_replies (s : State) : (setInitDone s).replies = s.replies := rfl
@[simp] theorem setInitDone_exchanged (s : State) : (setInitDone s).exchanged = s.exchanged := rfl

/-! taking a fault (R177) -/

@[simp] theorem takeFault_w (kind : FaultKind) (req : ReqWord) (detail : Option FieldDetail) (s : State) : (takeFault kind req detail s).w = s.w := rfl
@[simp] theorem takeFault_speedPref (kind : FaultKind) (req : ReqWord) (detail : Option FieldDetail) (s : State) : (takeFault kind req detail s).speedPref = s.speedPref := rfl
@[simp] theorem takeFault_busCfg (kind : FaultKind) (req : ReqWord) (detail : Option FieldDetail) (s : State) : (takeFault kind req detail s).busCfg = s.busCfg := rfl
@[simp] theorem takeFault_csN (kind : FaultKind) (req : ReqWord) (detail : Option FieldDetail) (s : State) : (takeFault kind req detail s).csN = s.csN := rfl
@[simp] theorem takeFault_initDone (kind : FaultKind) (req : ReqWord) (detail : Option FieldDetail) (s : State) : (takeFault kind req detail s).initDone = s.initDone := rfl
@[simp] theorem takeFault_fault (kind : FaultKind) (req : ReqWord) (detail : Option FieldDetail) (s : State) : (takeFault kind req detail s).fault = some ⟨kind, req, detail⟩ := rfl
@[simp] theorem takeFault_trace (kind : FaultKind) (req : ReqWord) (detail : Option FieldDetail) (s : State) : (takeFault kind req detail s).trace = s.trace := rfl
@[simp] theorem takeFault_frameOpen (kind : FaultKind) (req : ReqWord) (detail : Option FieldDetail) (s : State) : (takeFault kind req detail s).frameOpen = s.frameOpen := rfl
@[simp] theorem takeFault_csLine (kind : FaultKind) (req : ReqWord) (detail : Option FieldDetail) (s : State) : (takeFault kind req detail s).csLine = s.csLine := rfl
@[simp] theorem takeFault_pending (kind : FaultKind) (req : ReqWord) (detail : Option FieldDetail) (s : State) : (takeFault kind req detail s).pending = s.pending := rfl
@[simp] theorem takeFault_responses (kind : FaultKind) (req : ReqWord) (detail : Option FieldDetail) (s : State) : (takeFault kind req detail s).responses = s.responses := rfl
@[simp] theorem takeFault_replies (kind : FaultKind) (req : ReqWord) (detail : Option FieldDetail) (s : State) : (takeFault kind req detail s).replies = s.replies := rfl
@[simp] theorem takeFault_exchanged (kind : FaultKind) (req : ReqWord) (detail : Option FieldDetail) (s : State) : (takeFault kind req detail s).exchanged = s.exchanged := rfl

/-! placing a request -/

@[simp] theorem place_w (r : Request) (s : State) : (place r s).w = s.w := rfl
@[simp] theorem place_speedPref (r : Request) (s : State) : (place r s).speedPref = s.speedPref := rfl
@[simp] theorem place_busCfg (r : Request) (s : State) : (place r s).busCfg = s.busCfg := rfl
@[simp] theorem place_csN (r : Request) (s : State) : (place r s).csN = s.csN := rfl
@[simp] theorem place_initDone (r : Request) (s : State) : (place r s).initDone = s.initDone := rfl
@[simp] theorem place_fault (r : Request) (s : State) : (place r s).fault = s.fault := rfl
@[simp] theorem place_trace (r : Request) (s : State) : (place r s).trace = s.trace := rfl
@[simp] theorem place_frameOpen (r : Request) (s : State) : (place r s).frameOpen = s.frameOpen := rfl
@[simp] theorem place_csLine (r : Request) (s : State) : (place r s).csLine = s.csLine := rfl
@[simp] theorem place_pending (r : Request) (s : State) : (place r s).pending = r :: s.pending := rfl
@[simp] theorem place_responses (r : Request) (s : State) : (place r s).responses = s.responses := rfl
@[simp] theorem place_replies (r : Request) (s : State) : (place r s).replies = s.replies := rfl
@[simp] theorem place_exchanged (r : Request) (s : State) : (place r s).exchanged = s.exchanged := rfl

/-! issuing a request (R214) -/

@[simp] theorem issue_w (r : Request) (s : State) : (issue r s).w = s.w := rfl
@[simp] theorem issue_speedPref (r : Request) (s : State) : (issue r s).speedPref = s.speedPref := rfl
@[simp] theorem issue_busCfg (r : Request) (s : State) : (issue r s).busCfg = s.busCfg := rfl
@[simp] theorem issue_csN (r : Request) (s : State) : (issue r s).csN = s.csN := rfl
@[simp] theorem issue_initDone (r : Request) (s : State) : (issue r s).initDone = s.initDone := rfl
@[simp] theorem issue_fault (r : Request) (s : State) : (issue r s).fault = s.fault := rfl
@[simp] theorem issue_trace (r : Request) (s : State) : (issue r s).trace = s.trace := rfl
@[simp] theorem issue_frameOpen (r : Request) (s : State) : (issue r s).frameOpen = s.frameOpen := rfl
@[simp] theorem issue_csLine (r : Request) (s : State) : (issue r s).csLine = s.csLine := rfl
@[simp] theorem issue_pending (r : Request) (s : State) : (issue r s).pending = s.pending ++ [r] := rfl
@[simp] theorem issue_responses (r : Request) (s : State) : (issue r s).responses = s.responses := rfl
@[simp] theorem issue_replies (r : Request) (s : State) : (issue r s).replies = s.replies := rfl
@[simp] theorem issue_exchanged (r : Request) (s : State) : (issue r s).exchanged = s.exchanged := rfl

/-- The byte an exchange returns (R45). -/
@[simp] theorem exchange_fst (out : Byte) (s : State) : (exchange out s).1 = s.reply s.exchanged := rfl

end Sys2Proof.Machine
end

