-- ==== Sys2Proof/Laws/Ops.lean ====
section
/-!
SUPPORT. What each shared operation can do, said once.
-/
namespace Sys2Proof.Machine

/-! Replies -/

@[simp] theorem repliesFrom_zero (s : State) (n : Nat) : s.repliesFrom n 0 = [] := rfl

theorem repliesFrom_succ (s : State) (n len : Nat) :
    s.repliesFrom n (len + 1) = s.reply n :: s.repliesFrom (n + 1) len := by
  simp [State.repliesFrom, List.range_succ_eq_map, Nat.add_assoc, Nat.add_comm 1]

@[simp] theorem repliesFrom_length (s : State) (n len : Nat) : (s.repliesFrom n len).length = len := by
  simp [State.repliesFrom]

/-- A reply depends on the run's fixed replies and the line alone. -/
theorem reply_congr {s t : State} (hr : t.replies = s.replies) (hl : t.csLine = s.csLine) (n : Nat) :
    t.reply n = s.reply n := by simp [State.reply, hr, hl]

theorem repliesFrom_congr {s t : State} (hr : t.replies = s.replies) (hl : t.csLine = s.csLine) (n len : Nat) :
    t.repliesFrom n len = s.repliesFrom n len := by
  simp [State.repliesFrom, reply_congr hr hl]

/-! Exchanges and frames -/

/-- The payload exchanges of a frame (R48): the bytes received are the next replies, TRACE records each exchange, and the
number of exchanges is the payload's length. -/
theorem exchangeAll_eq (tx : List Byte) (s : State) :
    exchangeAll tx s = (s.repliesFrom s.exchanged tx.length,
      { s with
        trace := s.trace ++ List.zipWith .xchg tx (s.repliesFrom s.exchanged tx.length)
        exchanged := s.exchanged + tx.length }) := by
  induction tx generalizing s with
  | nil => simp [exchangeAll]
  | cons out rest ih =>
    have same : ∀ n, ((exchange out s).2).repliesFrom n rest.length = s.repliesFrom n rest.length :=
      fun n => repliesFrom_congr rfl rfl n _
    simp [exchangeAll, ih, same, repliesFrom_succ]
    simp [Nat.add_assoc, Nat.add_comm 1]

/-- A frame (R48, R50): the bytes it receives in its payload, its events, CS_N HIGH after it, and nothing else but the count of
exchanges. -/
theorem frame_eq (cmd : Byte) (tx : List Byte) (s : State) :
    frame cmd tx s = (s.repliesFrom (s.exchanged + 1) tx.length,
      { s with
        csN := .high
        frameOpen := false
        trace := s.trace ++ frameEvents s cmd tx
        exchanged := s.exchanged + 1 + tx.length }) := by
  have same : ∀ n, ((exchange cmd (select s)).2).repliesFrom n tx.length = s.repliesFrom n tx.length :=
    fun n => repliesFrom_congr rfl rfl n _
  simp [frame, exchangeAll_eq, same, frameEvents, deselect]
  simp [select, State.reply]

theorem commandOnly_eq (cmd : Byte) (s : State) :
    commandOnly cmd s =
      { s with
        csN := .high
        frameOpen := false
        trace := s.trace ++ [.sel s.csLine, .xchg cmd (s.reply s.exchanged), .des s.csLine]
        responses := s.responses ++ [.unit]
        exchanged := s.exchanged + 1 } := by
  simp [commandOnly, frame_eq, frameEvents, respond]

theorem readByte_eq (cmd : Byte) (s : State) :
    readByte cmd s =
      { s with
        csN := .high
        frameOpen := false
        trace := s.trace ++ [.sel s.csLine, .xchg cmd (s.reply s.exchanged),
          .xchg 0x00 (s.reply (s.exchanged + 1)), .des s.csLine]
        responses := s.responses ++ [.byte (s.reply (s.exchanged + 1))]
        exchanged := s.exchanged + 2 } := by
  simp [readByte, frame_eq, frameEvents, respond, repliesFrom_succ, Config.dummy]

theorem readWide_eq (cmd : Byte) (s : State) :
    readWide cmd s =
      { s with
        csN := .high
        frameOpen := false
        trace := s.trace ++ frameEvents s cmd (List.replicate s.w.bytes 0x00)
        responses := s.responses ++ [.wide (deserialize (s.repliesFrom (s.exchanged + 1) s.w.bytes))]
        exchanged := s.exchanged + 1 + s.w.bytes } := by
  simp [readWide, frame_eq, respond, dummies, Config.dummy]

theorem write_eq (cmd : Byte) (payload : List Byte) (s : State) :
    write cmd payload s =
      { s with
        csN := .high
        frameOpen := false
        trace := s.trace ++ frameEvents s cmd payload
        responses := s.responses ++ [.unit]
        exchanged := s.exchanged + 1 + payload.length } := by
  simp [write, frame_eq, respond]

/-! The acceptance check -/

/-- A faulted block takes no step (R179). -/
theorem standing_ne_next (f : FaultRecord) (t : State) : standing f ≠ .next t := by
  unfold standing
  split <;> simp

theorem accept_of_fault {s : State} {f : FaultRecord} (h : s.fault = some f) (req : ReqWord) (k : State → Answer) :
    accept req k s = standing f := by simp [accept, h]

theorem accept_of_frameOpen {s : State} (hf : s.fault = none) (ho : s.frameOpen = true) (req : ReqWord)
    (k : State → Answer) : accept req k s = .next (takeFault .requestOverlap req none s) := by
  simp [accept, hf, ho, raise]

theorem accept_of_accepts {s : State} (h : s.accepts) (req : ReqWord) (k : State → Answer) :
    accept req k s = k s := by
  obtain ⟨hf, ho⟩ := h
  simp [accept, hf, ho]

theorem acceptBus_of_ready {s : State} (h : s.ready) (req : ReqWord) (k : State → Answer) :
    acceptBus req k s = k s := by
  simp [acceptBus, accept_of_accepts h.1, h.2]

theorem acceptBus_of_not_initDone {s : State} (h : s.accepts) (hi : s.initDone = false) (req : ReqWord)
    (k : State → Answer) : acceptBus req k s = .next (takeFault .notInitialized req none s) := by
  simp [acceptBus, accept_of_accepts h, hi, raise]

/-- Everything the generic checks can let happen when they answer a next state. -/
theorem accept_next {req : ReqWord} {k : State → Answer} {s t : State} (h : accept req k s = .next t) :
    s.fault = none ∧
      ((s.frameOpen = true ∧ t = takeFault .requestOverlap req none s) ∨ (s.frameOpen = false ∧ k s = .next t)) := by
  unfold accept at h
  cases hf : s.fault with
  | some f => simp [hf] at h; exact absurd h (standing_ne_next f t)
  | none =>
    cases ho : s.frameOpen with
    | true => simp [hf, ho, raise] at h; exact ⟨rfl, .inl ⟨rfl, h.symm⟩⟩
    | false => simp [hf, ho] at h; exact ⟨rfl, .inr ⟨rfl, h⟩⟩

/-- Everything the checks of a bus operation can let happen when they answer a next state. -/
theorem acceptBus_next {req : ReqWord} {k : State → Answer} {s t : State} (h : acceptBus req k s = .next t) :
    s.fault = none ∧
      ((s.frameOpen = true ∧ t = takeFault .requestOverlap req none s) ∨
       (s.frameOpen = false ∧ s.initDone = false ∧ t = takeFault .notInitialized req none s) ∨
       (s.frameOpen = false ∧ s.initDone = true ∧ k s = .next t)) := by
  obtain ⟨hf, ⟨ho, ht⟩ | ⟨ho, hk⟩⟩ := accept_next h
  · exact ⟨hf, .inl ⟨ho, ht⟩⟩
  · cases hi : s.initDone with
    | true => simp [hi] at hk; exact ⟨hf, .inr (.inr ⟨ho, rfl, hk⟩)⟩
    | false => simp [hi, raise] at hk; exact ⟨hf, .inr (.inl ⟨ho, rfl, hk.symm⟩)⟩

/-- An operand check that answers a next state either took FIELD_RANGE or went on with the payload. -/
theorem withPayload_next {req : ReqWord} {payload : Except FieldDetail Byte} {k : Byte → State → Answer} {s t : State}
    (h : withPayload req payload k s = .next t) :
    (∃ d, payload = .error d ∧ t = takeFault .fieldRange req (some d) s) ∨ (∃ p, payload = .ok p ∧ k p s = .next t) := by
  cases payload with
  | error d => simp [withPayload, raise] at h; exact .inl ⟨d, rfl, h.symm⟩
  | ok p => exact .inr ⟨p, rfl, h⟩

end Sys2Proof.Machine
end

