-- ==== Sys2Proof/Laws/Exec.lean ====
section
/-!
SUPPORT. What an operation can do, said once: the checks of 60_exceptions.md R172 in their order, then the operation's effect.
-/
namespace Sys2Proof.Machine

/-- The effect of an operation that passes the checks (files 40 to 45), its operands taken to lie in their fields. -/
def performed : Instr → State → State
  | .init, s => respond .unit (setInitDone (configure s.speedPref .msbFirst .mode0 (deselect (configureLineOutput s))))
  | .clrMdr0, s => commandOnly (commandByte .clear .mdr0) s
  | .clrMdr1, s => commandOnly (commandByte .clear .mdr1) s
  | .clrCntr, s => commandOnly (commandByte .clear .cntr) s
  | .clrStr, s => commandOnly (commandByte .clear .str) s
  | .rdMdr0, s => readByte (commandByte .read .mdr0) s
  | .rdMdr1, s => readByte (commandByte .read .mdr1) s
  | .rdStr, s => readByte (commandByte .read .str) s
  | .rdCntr, s => readWide (commandByte .read .cntr) s
  | .rdOtr, s => readWide (commandByte .read .otr) s
  | .wrMdr0 q c x y f, s => write (commandByte .write .mdr0) [q ||| c ||| x ||| y ||| f] s
  | .wrMdr1 m e x c b y, s =>
    setWidth (widthOf (m.extractLsb' 0 2)) (write (commandByte .write .mdr1) [m ||| e ||| x ||| c ||| b ||| y] s)
  | .wrDtr v, s => write (commandByte .write .dtr) (serialize v s.w) s
  | .ldCntr, s => commandOnly (commandByte .load .cntr) s
  | .ldOtr, s => commandOnly (commandByte .load .otr) s
  | .setSpeed hz, s => respond .unit (setSpeedPref hz s)

/-- The operand an operation would fault on, if any (R174). -/
def failingOperand (i : Instr) : Option FieldDetail := firstOutside 0 i.maskedOperands

/-- A well-formed operation has no operand to fault on. -/
theorem wellFormed_iff (i : Instr) : WellFormed i = true ↔ failingOperand i = none := by
  cases i <;> simp [WellFormed, failingOperand, Instr.maskedOperands, mdr0Fields, mdr1Fields, firstOutside]

theorem failingOperand_of_not_wellFormed {i : Instr} (h : WellFormed i = false) : ∃ d, failingOperand i = some d :=
  Option.ne_none_iff_exists'.1 fun hn => by simp [(wellFormed_iff i).2 hn] at h

/-- The outcome of an operation once no fault stands and no frame is open, by INIT_DONE and the operands. -/
def outcome (i : Instr) (s : State) : Answer :=
  if i.isBus && !s.initDone then .next (takeFault .notInitialized i.req none s)
  else match failingOperand i with
    | some d => .next (takeFault .fieldRange i.req (some d) s)
    | none => .next (performed i s)

theorem assembleMdr0_eq (q c x y f : Byte) : assembleMdr0 q c x y f =
    match failingOperand (.wrMdr0 q c x y f) with
    | some d => .error d
    | none => .ok (q ||| c ||| x ||| y ||| f) := rfl

theorem assembleMdr1_eq (m e x c b y : Byte) : assembleMdr1 m e x c b y =
    match failingOperand (.wrMdr1 m e x c b y) with
    | some d => .error d
    | none => .ok (m ||| e ||| x ||| c ||| b ||| y) := rfl

/-- Every operation begins with the generic checks. -/
theorem exec_accept (i : Instr) : ∃ k, ∀ s, exec i s = accept i.req k s := by
  cases i <;> exact ⟨_, fun _ => rfl⟩

/-- A bus operation without a check of its operands is the checks of a bus operation around its effect. -/
theorem acceptBus_performed {i : Instr} {s : State} (h : s.accepts) (hb : i.isBus = true) (hd : failingOperand i = none)
    (he : exec i s = acceptBus i.req (fun s => .next (performed i s)) s) : exec i s = outcome i s := by
  rw [he, acceptBus, accept_of_accepts h, outcome, hb, hd]
  cases s.initDone <;> rfl

/-- Every operation is the generic checks around its outcome. -/
theorem exec_eq (i : Instr) (s : State) : exec i s = accept i.req (outcome i) s := by
  obtain ⟨k, hk⟩ := exec_accept i
  cases hf : s.fault with
  | some f => rw [hk, accept_of_fault hf, accept_of_fault hf]
  | none =>
    cases ho : s.frameOpen with
    | true => rw [hk, accept_of_frameOpen hf ho, accept_of_frameOpen hf ho]
    | false =>
      have h : s.accepts := ⟨hf, ho⟩
      rw [accept_of_accepts h]
      cases i
      case init => simp only [exec, execInit, accept_of_accepts h]; rfl
      case setSpeed => simp only [exec, execSetSpeed, accept_of_accepts h]; rfl
      case wrMdr0 q c x y f =>
        simp only [exec, execWrMdr0, acceptBus, accept_of_accepts h, assembleMdr0_eq, outcome]
        cases hi : s.initDone
        · rfl
        · cases failingOperand (.wrMdr0 q c x y f) <;> rfl
      case wrMdr1 m e x c b y =>
        simp only [exec, execWrMdr1, acceptBus, accept_of_accepts h, assembleMdr1_eq, outcome]
        cases hi : s.initDone
        · rfl
        · cases failingOperand (.wrMdr1 m e x c b y) <;> rfl
      all_goals exact acceptBus_performed h rfl rfl rfl

theorem exec_of_fault {s : State} {f : FaultRecord} (h : s.fault = some f) (i : Instr) : exec i s = standing f := by
  rw [exec_eq, accept_of_fault h]

theorem exec_of_frameOpen {s : State} (hf : s.fault = none) (ho : s.frameOpen = true) (i : Instr) :
    exec i s = .next (takeFault .requestOverlap i.req none s) := by
  rw [exec_eq, accept_of_frameOpen hf ho]

theorem exec_of_not_initDone {s : State} {i : Instr} (h : s.accepts) (hb : i.isBus = true) (hi : s.initDone = false) :
    exec i s = .next (takeFault .notInitialized i.req none s) := by
  simp [exec_eq, accept_of_accepts h, outcome, hb, hi]

theorem exec_of_failingOperand {s : State} {i : Instr} {d : FieldDetail} (h : s.accepts)
    (hb : i.isBus = true → s.initDone = true) (hd : failingOperand i = some d) :
    exec i s = .next (takeFault .fieldRange i.req (some d) s) := by
  rw [exec_eq, accept_of_accepts h]
  cases hh : i.isBus <;> simp_all [outcome]

theorem exec_of_performed {s : State} {i : Instr} (h : s.accepts) (hb : i.isBus = true → s.initDone = true)
    (hw : failingOperand i = none) : exec i s = .next (performed i s) := by
  rw [exec_eq, accept_of_accepts h]
  cases hh : i.isBus <;> simp_all [outcome]

/-- A well-formed operation on a ready block is performed. -/
theorem exec_of_ready {s : State} {i : Instr} (h : s.ready) (hw : WellFormed i = true) : exec i s = .next (performed i s) :=
  exec_of_performed h.1 (fun _ => h.2) ((wellFormed_iff i).1 hw)

/-- Everything an operation can do when it answers a next state. -/
theorem exec_next {i : Instr} {s t : State} (h : exec i s = .next t) :
    s.fault = none ∧
      ((s.frameOpen = true ∧ t = takeFault .requestOverlap i.req none s) ∨
       (s.frameOpen = false ∧ i.isBus = true ∧ s.initDone = false ∧ t = takeFault .notInitialized i.req none s) ∨
       (s.frameOpen = false ∧ (i.isBus = true → s.initDone = true) ∧
         ∃ d, failingOperand i = some d ∧ t = takeFault .fieldRange i.req (some d) s) ∨
       (s.frameOpen = false ∧ (i.isBus = true → s.initDone = true) ∧ failingOperand i = none ∧ t = performed i s)) := by
  rw [exec_eq] at h
  obtain ⟨hf, ⟨ho, ht⟩ | ⟨ho, hk⟩⟩ := accept_next h
  · exact ⟨hf, .inl ⟨ho, ht⟩⟩
  · refine ⟨hf, .inr ?_⟩
    cases hb : i.isBus <;> cases hi : s.initDone <;> cases hd : failingOperand i <;> simp [outcome, hb, hi, hd] at hk <;>
      simp [ho, hk]

/-- Everything a request that spells no operation can do when it answers a next state (R175, R176). -/
theorem execIllegal_next {req : ReqWord} {s t : State} (h : execIllegal req s = .next t) :
    s.fault = none ∧
      ((s.frameOpen = true ∧ t = takeFault .requestOverlap req none s) ∨
       (s.frameOpen = false ∧ t = takeFault .illegalRequest req none s)) := by
  obtain ⟨hf, ⟨ho, ht⟩ | ⟨ho, hk⟩⟩ := accept_next h
  · exact ⟨hf, .inl ⟨ho, ht⟩⟩
  · simp [raise] at hk; exact ⟨hf, .inr ⟨ho, hk.symm⟩⟩

/-! What performing an operation leaves in the fields that few operations write -/

@[simp] theorem performed_fault (i : Instr) (s : State) : (performed i s).fault = s.fault := by
  cases i <;> simp [performed, commandOnly_eq, readByte_eq, readWide_eq, write_eq]

@[simp] theorem performed_csLine (i : Instr) (s : State) : (performed i s).csLine = s.csLine := by
  cases i <;> simp [performed, commandOnly_eq, readByte_eq, readWide_eq, write_eq]

@[simp] theorem performed_pending (i : Instr) (s : State) : (performed i s).pending = s.pending := by
  cases i <;> simp [performed, commandOnly_eq, readByte_eq, readWide_eq, write_eq]

@[simp] theorem performed_replies (i : Instr) (s : State) : (performed i s).replies = s.replies := by
  cases i <;> simp [performed, commandOnly_eq, readByte_eq, readWide_eq, write_eq]

theorem performed_accepts {s : State} (h : s.accepts) (i : Instr) : (performed i s).accepts := by
  have ho := h.2
  refine ⟨(performed_fault i s).trans h.1, ?_⟩
  cases i <;> simp [performed, commandOnly_eq, readByte_eq, readWide_eq, write_eq, ho]

theorem performed_initDone {s : State} (h : s.initDone = true) (i : Instr) : (performed i s).initDone = true := by
  cases i <;> simp [performed, commandOnly_eq, readByte_eq, readWide_eq, write_eq, h]

theorem performed_responses_length (i : Instr) (s : State) :
    (performed i s).responses.length = s.responses.length + 1 := by
  cases i <;> simp [performed, commandOnly_eq, readByte_eq, readWide_eq, write_eq]

/-! Histories -/

theorem serialize_length (v : Word) (n : Width) : (serialize v n).length = n.bytes := by simp [serialize]

theorem replay_append (line : LineId) (m : Monitor) (xs ys : List Event) :
    Monitor.replay line m (xs ++ ys) = (Monitor.replay line m xs).bind fun m' => Monitor.replay line m' ys := by
  induction xs generalizing m with
  | nil => rfl
  | cons e xs ih =>
    simp only [List.cons_append, Monitor.replay]
    cases m.observe line e <;> simp [ih]

theorem hold_append (h : Hold) (xs ys : List (Nat × Event)) :
    Hold.replay h (xs ++ ys) = (Hold.replay h xs).bind fun h' => Hold.replay h' ys := by
  induction xs generalizing h with
  | nil => rfl
  | cons e xs ih =>
    simp only [List.cons_append, Hold.replay]
    cases h.observe e <;> simp [ih]

theorem clockPeriods_append (xs ys : List Event) : clockPeriods (xs ++ ys) = clockPeriods xs + clockPeriods ys := by
  induction xs with
  | nil => simp [clockPeriods]
  | cons e xs ih => cases e <;> simp [clockPeriods, ih, Nat.add_assoc]

end Sys2Proof.Machine
end

