-- ==== Sys2Proof/Laws/Step.lean ====
section
/-!
SUPPORT. What one step, and a run of steps, can do, said once.
-/
namespace Sys2Proof.Machine

theorem step_of_idle {s : State} (h : s.pending = []) : step s = idle s := by
  simp [step, takeRequest, h]

theorem step_of_request {s : State} {r : Request} {rest : List Request} (h : s.pending = r :: rest) :
    step s = match decode r with
      | .error _ => execIllegal r.req { s with pending := rest }
      | .ok i => exec i { s with pending := rest } := by
  have e : takeRequest s = some (r, { s with pending := rest }) := by simp only [takeRequest, h]
  cases hd : decode r <;> simp [step, e, hd]

/-- A faulted block takes no step (R179). -/
theorem step_of_fault {s : State} {f : FaultRecord} (h : s.fault = some f) : step s = standing f := by
  cases hp : s.pending with
  | nil => rw [step_of_idle hp]; simp [idle, h]
  | cons r rest =>
    rw [step_of_request hp]
    cases decode r with
    | error c => simp [execIllegal, accept, h]
    | ok i => exact exec_of_fault (by exact h) i

/-- A request that passes every check is performed whole. -/
theorem step_of_performed {s : State} {r : Request} {rest : List Request} {i : Instr} (hp : s.pending = r :: rest)
    (hd : decode r = .ok i) (h : s.accepts) (hb : i.isBus = true → s.initDone = true) (hw : failingOperand i = none) :
    step s = .next (performed i { s with pending := rest }) := by
  rw [step_of_request hp, hd]
  exact exec_of_performed (by exact h) (by exact hb) hw

/-- A step that answers a next state was idle, took a request that spells no operation, or ran an operation. -/
theorem step_next {s t : State} (h : step s = .next t) :
    (s.pending = [] ∧ s.fault = none ∧ t = s) ∨
    (∃ r rest c, s.pending = r :: rest ∧ decode r = .error c ∧ execIllegal r.req { s with pending := rest } = .next t) ∨
    (∃ r rest i, s.pending = r :: rest ∧ decode r = .ok i ∧ exec i { s with pending := rest } = .next t) := by
  cases hp : s.pending with
  | nil =>
    rw [step_of_idle hp] at h
    cases hf : s.fault with
    | none => simp [idle, hf] at h; exact .inl ⟨rfl, rfl, h.symm⟩
    | some f => simp [idle, hf] at h; exact absurd h (standing_ne_next f t)
  | cons r rest =>
    rw [step_of_request hp] at h
    cases hd : decode r with
    | error c => rw [hd] at h; exact .inr (.inl ⟨r, rest, c, rfl, hd, h⟩)
    | ok i => rw [hd] at h; exact .inr (.inr ⟨r, rest, i, rfl, hd, h⟩)

/-- A run goes on from the next state of its first step. -/
theorem run_succ (k : Nat) {s t : State} (h : step s = .next t) :
    Host.Core.run Sys2Proof.core (k + 1) s = Host.Core.run Sys2Proof.core k t := by
  have e : Sys2Proof.core.step s = .next t := h
  simp only [Host.Core.run]
  rw [e]

end Sys2Proof.Machine
end

