-- ==== Sys2Proof/Laws/Bus.lean ====
section
/-!
SUPPORT. What a move of one block of a shared bus can do, said once.
-/
namespace Sys2Proof.Machine

/-- No step changes the line of a block (R36). -/
theorem step_csLine {s t : State} (h : step s = .next t) : t.csLine = s.csLine := by
  obtain ⟨-, -, rfl⟩ | ⟨_, _, _, -, -, h⟩ | ⟨_, _, _, -, -, h⟩ := step_next h
  · rfl
  · obtain ⟨-, ⟨-, rfl⟩ | ⟨-, rfl⟩⟩ := execIllegal_next h <;> rfl
  · obtain ⟨-, ⟨-, rfl⟩ | ⟨-, -, -, rfl⟩ | ⟨-, -, _, -, rfl⟩ | ⟨-, -, -, rfl⟩⟩ := exec_next h <;> simp

/-- A move of block `k` that its step allows. -/
theorem stepOf_next {k : Nat} {b : Bus} {s t : State} (hk : b.blocks[k]? = some s) (h : step s = .next t) :
    Bus.stepOf k b =
      { blocks := b.blocks.set k t, history := b.history ++ (newEvents s t).map (Prod.mk k) } := by
  simp [Bus.stepOf, hk, h]

/-- A block that is not there, or takes no step, changes nothing. -/
theorem stepOf_stop {k : Nat} {b : Bus} (h : ∀ s t, b.blocks[k]? = some s → step s ≠ .next t) : Bus.stepOf k b = b := by
  cases hk : b.blocks[k]? with
  | none => simp [Bus.stepOf, hk]
  | some s => cases hs : step s with
    | next t => exact absurd hs (h s t hk)
    | fault r => simp [Bus.stepOf, hk, hs]
    | refused r => simp [Bus.stepOf, hk, hs]

/-- Everything a move of block `k` can do. -/
theorem stepOf_cases (k : Nat) (b : Bus) :
    Bus.stepOf k b = b ∨ ∃ s t, b.blocks[k]? = some s ∧ step s = .next t ∧
      Bus.stepOf k b = { blocks := b.blocks.set k t, history := b.history ++ (newEvents s t).map (Prod.mk k) } := by
  by_cases h : ∃ s t, b.blocks[k]? = some s ∧ step s = .next t
  · obtain ⟨s, t, hk, hs⟩ := h
    exact .inr ⟨s, t, hk, hs, stepOf_next hk hs⟩
  · exact .inl (stepOf_stop fun s t hk hs => h ⟨s, t, hk, hs⟩)

end Sys2Proof.Machine
end

