-- ==== Sys2Proof/Laws/PerInstr.lean ====
section
/-!
SUPPORT. Laws about every instruction as syntax, one lemma per constructor.
-/
namespace Sys2Proof.Laws

/-- The form of an operation's request word (R84, R85): bits 2:0 are 0b000; KIND is BUS exactly for the 14 bus operations; and
for the two others, CMD is 0x00. -/
def WordForm.Statement (i : Instr) : Prop :=
  i.req.extractLsb' 0 3 = 0b000#3 ∧
  i.isBus = (i.req.extractLsb' 8 2 == 0b00#2) ∧
  (i.isBus = false → i.req.extractLsb' 0 8 = 0x00#8)

/-- The form says nothing of the operands: it is that of the word and of the kind of operation. -/
theorem wordForm_of_word {i : Instr} (req : ReqWord) (bus : Bool) (hr : i.req = req) (hb : i.isBus = bus)
    (h : req.extractLsb' 0 3 = 0b000#3 ∧ bus = (req.extractLsb' 8 2 == 0b00#2) ∧
      (bus = false → req.extractLsb' 0 8 = 0x00#8)) : WordForm.Statement i := by
  subst hr hb
  exact h

theorem WordForm.init : WordForm.Statement .init := wordForm_of_word 0x100 false rfl rfl (by decide)

theorem WordForm.clrMdr0 : WordForm.Statement .clrMdr0 := wordForm_of_word 0x008 true rfl rfl (by decide)

theorem WordForm.clrMdr1 : WordForm.Statement .clrMdr1 := wordForm_of_word 0x010 true rfl rfl (by decide)

theorem WordForm.clrCntr : WordForm.Statement .clrCntr := wordForm_of_word 0x020 true rfl rfl (by decide)

theorem WordForm.clrStr : WordForm.Statement .clrStr := wordForm_of_word 0x030 true rfl rfl (by decide)

theorem WordForm.rdMdr0 : WordForm.Statement .rdMdr0 := wordForm_of_word 0x048 true rfl rfl (by decide)

theorem WordForm.rdMdr1 : WordForm.Statement .rdMdr1 := wordForm_of_word 0x050 true rfl rfl (by decide)

theorem WordForm.rdStr : WordForm.Statement .rdStr := wordForm_of_word 0x070 true rfl rfl (by decide)

theorem WordForm.rdCntr : WordForm.Statement .rdCntr := wordForm_of_word 0x060 true rfl rfl (by decide)

theorem WordForm.rdOtr : WordForm.Statement .rdOtr := wordForm_of_word 0x068 true rfl rfl (by decide)

theorem WordForm.wrMdr0 (quad count index sync filter : Byte) :
    WordForm.Statement (.wrMdr0 quad count index sync filter) :=
  wordForm_of_word 0x088 true rfl rfl (by decide)

theorem WordForm.wrMdr1 (mode enable idx cmp bw cy : Byte) :
    WordForm.Statement (.wrMdr1 mode enable idx cmp bw cy) :=
  wordForm_of_word 0x090 true rfl rfl (by decide)

theorem WordForm.wrDtr (value : Word) : WordForm.Statement (.wrDtr value) := wordForm_of_word 0x098 true rfl rfl (by decide)

theorem WordForm.ldCntr : WordForm.Statement .ldCntr := wordForm_of_word 0x0E0 true rfl rfl (by decide)

theorem WordForm.ldOtr : WordForm.Statement .ldOtr := wordForm_of_word 0x0E8 true rfl rfl (by decide)

theorem WordForm.setSpeed (hz : Word) : WordForm.Statement (.setSpeed hz) := wordForm_of_word 0x200 false rfl rfl (by decide)

end Sys2Proof.Laws
end

