-- ==== Sys2Proof/Tests/Slice0.lean ====
section
/-!
SUPPORT. Tests of the model on words, lines and single steps taken from the spec (the vectors of 95_test_vectors.md and the
examples of 40 to 45), and for every obligation with hypotheses a state and operands that meet them.
-/
namespace Sys2Proof.Tests
open Sys2Proof.Machine

/-! A small state -/

/-- A block on line 7 after construction and one INIT at 1000000 Hz, with width `w` and the chip's next replies. -/
def block (w : Width) (replies : List Byte) : State :=
  { State.construct 7 1000000 with
    w := w
    busCfg := some ⟨1000000, .msbFirst, .mode0⟩
    csN := .high
    initDone := true
    trace := [.cfgLine 7, .des 7, .cfg 1000000 .msbFirst .mode0]
    responses := [.unit]
    replies := replies.map some }

/-- A block on line 7 right after construction. -/
def fresh : State := State.construct 7 1000000

/-- The fresh block with requests waiting. -/
def freshWith (rs : List Request) : State := { fresh with pending := rs }

/-- The next state, if there is one. -/
def nextState : Answer → Option State
  | .next t => some t
  | .fault _ | .refused _ => none

/-- The events an operation appends. -/
def events (i : Instr) (s : State) : Option (List Event) := (nextState (exec i s)).map (newEvents s)

/-- The responses an operation adds. -/
def returned (i : Instr) (s : State) : Option (List Response) :=
  (nextState (exec i s)).map fun t => t.responses.drop s.responses.length

/-- The fault record an operation leaves. -/
def recorded (i : Instr) (s : State) : Option (Option FaultRecord) := (nextState (exec i s)).map State.fault

/-! Well-formedness: each operand of a mode-register write outside its own field (R174) -/

theorem test_wellFormed_mdr0 : WellFormed (.wrMdr0 0x03 0x0C 0x30 0x40 0x80) = true := by decide
theorem test_illFormed_quad : WellFormed (.wrMdr0 0x04 0x00 0x00 0x00 0x00) = false := by decide
theorem test_illFormed_count : WellFormed (.wrMdr0 0x00 0x10 0x00 0x00 0x00) = false := by decide
theorem test_illFormed_index : WellFormed (.wrMdr0 0x00 0x00 0x40 0x00 0x00) = false := by decide
theorem test_illFormed_sync : WellFormed (.wrMdr0 0x00 0x00 0x00 0x80 0x00) = false := by decide
theorem test_illFormed_filter : WellFormed (.wrMdr0 0x00 0x00 0x00 0x00 0x01) = false := by decide
theorem test_wellFormed_mdr1 : WellFormed (.wrMdr1 0x03 0x04 0x10 0x20 0x40 0x80) = true := by decide
theorem test_illFormed_mode : WellFormed (.wrMdr1 0x04 0x00 0x00 0x00 0x00 0x00) = false := by decide
theorem test_illFormed_enable : WellFormed (.wrMdr1 0x00 0x08 0x00 0x00 0x00 0x00) = false := by decide
theorem test_illFormed_idx : WellFormed (.wrMdr1 0x00 0x00 0x20 0x00 0x00 0x00) = false := by decide
theorem test_illFormed_cmp : WellFormed (.wrMdr1 0x00 0x00 0x00 0x10 0x00 0x00) = false := by decide
theorem test_illFormed_bw : WellFormed (.wrMdr1 0x00 0x00 0x00 0x00 0x80 0x00) = false := by decide
theorem test_illFormed_cy : WellFormed (.wrMdr1 0x00 0x00 0x00 0x00 0x00 0x40) = false := by decide

/-! Decoding: KIND, CLASS, SEL, ZERO written out bit by bit (Tables 30-1 to 30-4), ARG from the programs P1 to P5 -/

theorem test_decode_init : decodeTableWord 16 0b0100000000 = some .init := by decide
theorem test_decode_clrMdr0 : decodeTableWord 16 0b0000001000 = some .clrMdr0 := by decide
theorem test_decode_clrMdr1 : decodeTableWord 16 0b0000010000 = some .clrMdr1 := by decide
theorem test_decode_clrCntr : decodeTableWord 16 0b0000100000 = some .clrCntr := by decide
theorem test_decode_clrStr : decodeTableWord 16 0b0000110000 = some .clrStr := by decide
theorem test_decode_rdMdr0 : decodeTableWord 16 0b0001001000 = some .rdMdr0 := by decide
theorem test_decode_rdMdr1 : decodeTableWord 16 0b0001010000 = some .rdMdr1 := by decide
theorem test_decode_rdStr : decodeTableWord 16 0b0001110000 = some .rdStr := by decide
theorem test_decode_rdCntr : decodeTableWord 16 0b0001100000 = some .rdCntr := by decide
theorem test_decode_rdOtr : decodeTableWord 16 0b0001101000 = some .rdOtr := by decide
theorem test_decode_ldCntr : decodeTableWord 16 0b0011100000 = some .ldCntr := by decide
theorem test_decode_ldOtr : decodeTableWord 16 0b0011101000 = some .ldOtr := by decide
/-- P5: REQ 0x088, ARG 0x000000001003. -/
theorem test_decode_wrMdr0 :
    decodeTableWord 58 (0b0010001000 + 0x000000001003 * 1024) = some (.wrMdr0 0x03 0x10 0x00 0x00 0x00) := by decide
/-- Each A-byte of R86 in its own place. -/
theorem test_decode_wrMdr1 :
    decodeTableWord 58 (0b0010010000 + 0x060504030201 * 1024) = some (.wrMdr1 0x01 0x02 0x03 0x04 0x05 0x06) := by decide
/-- P1: REQ 0x098, ARG 0x000000011234; ARG[47:32] is ignored (R86). -/
theorem test_decode_wrDtr :
    decodeTableWord 58 (0b0010011000 + 0xFFFF00011234 * 1024) = some (.wrDtr 0x00011234) := by decide
/-- P3: REQ 0x200, ARG 0x0000000F4240. -/
theorem test_decode_setSpeed :
    decodeTableWord 58 (0b1000000000 + 0x0000000F4240 * 1024) = some (.setSpeed 1000000) := by decide

/-- The illegal words of V-DEC. -/
theorem test_decode_illegal :
    [0x018, 0x028, 0x058, 0x0A0, 0x0A8, 0x0B0, 0x0C8, 0x0D0, 0x0D8, 0x0F0, 0x000, 0x038, 0x0C0, 0x0F8, 0x061, 0x0E9, 0x00F,
      0x101, 0x2FF, 0x300, 0x3E0].all (fun w => decodeTableWord 16 w == none) = true := by decide

/-- P1, P2, P3, P5: the words and operand bundles of the programs. -/
theorem test_encode_programs :
    encode .init = ⟨0x100, 0x000000000000⟩ ∧
    encode (.wrMdr1 0x02 0 0 0 0 0) = ⟨0x090, 0x000000000002⟩ ∧
    encode (.wrMdr1 0x03 0x04 0 0 0 0) = ⟨0x090, 0x000000000403⟩ ∧
    encode (.wrDtr 0x00011234) = ⟨0x098, 0x000000011234⟩ ∧
    encode (.setSpeed 2000000) = ⟨0x200, 0x0000001E8480⟩ ∧
    encode (.wrMdr0 0x03 0x10 0 0 0) = ⟨0x088, 0x000000001003⟩ := by decide

/-- A word placed for the next step is the one the next step takes. -/
theorem test_withFetchWord :
    (nextState (step (fresh.withFetchWord 16 0x100))).map (fun t => (t.initDone, t.pending)) = some (true, []) := by decide

/-- Table 60-1: the codes of the fault kinds. -/
theorem test_fault_codes :
    [FaultKind.notInitialized, .fieldRange, .illegalRequest, .requestOverlap].map FaultKind.code = [1, 2, 3, 4] := by decide

/-! Steps of each operation -/

/-- R110, example. -/
theorem test_init_events : events .init fresh = some [.cfgLine 7, .des 7, .cfg 1000000 .msbFirst .mode0] := by decide
/-- R111: a repeated INIT keeps W; V-INIT: the three events again. -/
theorem test_init_again : (nextState (exec .init (block .two []))).map (fun t => (t.w, t.busCfg, t.trace.length))
    = some (.two, some ⟨1000000, .msbFirst, .mode0⟩, 6) := by decide
/-- R121. -/
theorem test_clrMdr0 : events .clrMdr0 (block .four [0xA5]) = some [.sel 7, .xchg 0x08 0xA5, .des 7] := by decide
/-- R122: W is still 2. -/
theorem test_clrMdr1 : events .clrMdr1 (block .two [0xA5]) = some [.sel 7, .xchg 0x10 0xA5, .des 7] ∧
    (nextState (exec .clrMdr1 (block .two [0xA5]))).map State.w = some .two := by decide
/-- R123. -/
theorem test_clrCntr : events .clrCntr (block .one [0xA5]) = some [.sel 7, .xchg 0x20 0xA5, .des 7] := by decide
/-- V-CLR: from reset, no INIT. -/
theorem test_clrCntr_before_init : recorded .clrCntr fresh = some (some ⟨.notInitialized, 0x020, none⟩) ∧
    events .clrCntr fresh = some [] := by decide
/-- R124. -/
theorem test_clrStr : events .clrStr (block .four [0xA5]) = some [.sel 7, .xchg 0x30 0xA5, .des 7] := by decide
/-- R131, example. -/
theorem test_rdMdr0 : returned .rdMdr0 (block .four [0x00, 0xD7]) = some [.byte 0xD7] := by decide
/-- R132, example: W stays 4. -/
theorem test_rdMdr1 : returned .rdMdr1 (block .four [0x00, 0x03]) = some [.byte 0x03] ∧
    (nextState (exec .rdMdr1 (block .four [0x00, 0x03]))).map State.w = some .four := by decide
/-- V-RDB: the reply to the command byte is recorded and discarded. -/
theorem test_rdStr : events .rdStr (block .one [0xEE, 0x11]) = some [.sel 7, .xchg 0x70 0xEE, .xchg 0x00 0x11, .des 7] ∧
    returned .rdStr (block .one [0xEE, 0x11]) = some [.byte 0x11] := by decide
/-- R135, example (E4). -/
theorem test_rdCntr_four : returned .rdCntr (block .four [0, 0x01, 0x02, 0x03, 0x04]) = some [.wide 0x01020304] := by decide
/-- V-RDW: no sign extension. -/
theorem test_rdCntr_one : returned .rdCntr (block .one [0, 0x80]) = some [.wide 0x00000080] := by decide
/-- R136, example: the value and the full trace. -/
theorem test_rdOtr_three : returned .rdOtr (block .three [0xFF, 0xAB, 0xCD, 0xEF]) = some [.wide 0x00ABCDEF] ∧
    events .rdOtr (block .three [0xFF, 0xAB, 0xCD, 0xEF]) =
      some [.sel 7, .xchg 0x68 0xFF, .xchg 0x00 0xAB, .xchg 0x00 0xCD, .xchg 0x00 0xEF, .des 7] := by decide
/-- E6. -/
theorem test_wrMdr0 : events (.wrMdr0 0x03 0x04 0x10 0x40 0x80) (block .four [1, 2]) =
    some [.sel 7, .xchg 0x88 1, .xchg 0xD7 2, .des 7] := by decide
/-- V-WR0: the lowest failing operand. -/
theorem test_wrMdr0_range : recorded (.wrMdr0 0x04 0x01 0 0 0) (block .four []) =
    some (some ⟨.fieldRange, 0x088, some ⟨0, 0x04⟩⟩) := by decide
/-- R147, example. -/
theorem test_wrMdr1 : events (.wrMdr1 0x02 0x04 0x10 0 0 0x80) (block .four [1, 2]) =
      some [.sel 7, .xchg 0x90 1, .xchg 0x96 2, .des 7] ∧
    (nextState (exec (.wrMdr1 0x02 0x04 0x10 0 0 0x80) (block .four [1, 2]))).map State.w = some .two := by decide
/-- V-WR1: a faulted WR_MDR1 leaves W at 3. -/
theorem test_wrMdr1_range : (nextState (exec (.wrMdr1 0 0 0 0 0 0x40) (block .three []))).map (fun t => (t.fault, t.w)) =
    some (some ⟨.fieldRange, 0x090, some ⟨5, 0x40⟩⟩, .three) := by decide
/-- R148, example (E3). -/
theorem test_wrDtr_two : events (.wrDtr 0x00011234) (block .two [1, 2, 3]) =
    some [.sel 7, .xchg 0x98 1, .xchg 0x12 2, .xchg 0x34 3, .des 7] := by decide
/-- V-DTR: the trace of the W = 3 case. -/
theorem test_wrDtr_three : events (.wrDtr 0x00011234) (block .three [1, 2, 3, 4]) =
    some [.sel 7, .xchg 0x98 1, .xchg 0x01 2, .xchg 0x12 3, .xchg 0x34 4, .des 7] := by decide
/-- R161. -/
theorem test_ldCntr : events .ldCntr (block .four [9]) = some [.sel 7, .xchg 0xE0 9, .des 7] := by decide
/-- V-LD: W does not matter. -/
theorem test_ldOtr : events .ldOtr (block .one [9]) = some [.sel 7, .xchg 0xE8 9, .des 7] := by decide
/-- V-LD: from reset, no INIT. -/
theorem test_ldOtr_before_init : recorded .ldOtr fresh = some (some ⟨.notInitialized, 0x0E8, none⟩) := by decide
/-- R165, example: BUS_CFG and TRACE as they were. -/
theorem test_setSpeed : (nextState (exec (.setSpeed 2000000) (block .four []))).map (fun t => (t.speedPref, t.busCfg, t.trace)) =
    some (2000000, some ⟨1000000, .msbFirst, .mode0⟩, (block .four []).trace) := by decide
/-- V-FLT: accepted from reset. -/
theorem test_setSpeed_before_init : (nextState (exec (.setSpeed 9600) fresh)).map (fun t => (t.speedPref, t.fault, t.csN)) =
    some (9600, none, .undriven) := by decide

/-- V-FLT: ILLEGAL_REQUEST has priority over NOT_INITIALIZED. -/
theorem test_illegal_from_reset : (nextState (step (freshWith [⟨0x018, 0⟩]))).map State.fault =
    some (some ⟨.illegalRequest, 0x018, none⟩) := by decide
/-- V-FLT: NOT_INITIALIZED has priority over FIELD_RANGE. -/
theorem test_notInitialized_first : recorded (.wrMdr0 0x04 0 0 0 0) fresh = some (some ⟨.notInitialized, 0x088, none⟩) := by
  decide

/-! The assembler: lines of the programs P1 to P6 -/

theorem test_line_init : (assembleLine "initialize()                 -- REQ 0x100".toList).toOption =
    some (some ⟨.init, none⟩) := by decide
theorem test_line_wrMdr1 : (assembleLine "write_mdr1(BYTE_2, CE_1, FLAG_IDX, FLAG_NONE, FLAG_NONE, FLAG_CY)".toList).toOption =
    some (some ⟨.wrMdr1 0x02 0x04 0x10 0 0 0x80, none⟩) := by decide
theorem test_line_wrMdr0_aliases : (assembleLine "write_mdr0(x2, single_cycle, CNTR_load, sync, filter_2)".toList).toOption =
    some (some ⟨.wrMdr0 0x02 0x04 0x10 0x40 0x80, none⟩) := by decide
theorem test_line_wrDtr : (assembleLine "write_dtr(0x00011234)".toList).toOption = some (some ⟨.wrDtr 0x00011234, none⟩) := by
  decide
theorem test_line_setSpeed : (assembleLine "set_speed(1000000)".toList).toOption = some (some ⟨.setSpeed 1000000, none⟩) := by
  decide
theorem test_line_rdCntr : (assembleLine "read_wide(CNTR) <- miso [0x12, 0x34]   -- P1".toList).toOption =
    some (some ⟨.rdCntr, some [0x12, 0x34]⟩) := by decide
/-- R100: "Examples are `clear(DTR)`, `read_byte(CNTR)` and `load(MDR0)`". -/
theorem test_line_errors : (assembleLine "clear(DTR)".toList).toOption = none ∧
    (assembleLine "read_byte(CNTR)".toList).toOption = none ∧ (assembleLine "load(MDR0)".toList).toOption = none := by decide
theorem test_line_comment : (assembleLine "   -- a comment".toList).toOption = some none := by decide
theorem test_program : ((assemble "clear(MDR0)\n\nload(OTR)\n".toList).toOption.map (List.map AsmLine.instr)) =
    some [.clrMdr0, .ldOtr] := by decide

/-! Witnesses: for each obligation with hypotheses, a state and operands that meet them together -/

/-- A ready block with requests waiting. -/
def busy (rs : List Request) : State := { block .four [] with pending := rs }

/-- A block whose frame is open: no run reaches it (R176). -/
def open_ : State := { block .four [] with frameOpen := true, csN := .low }

/-- A block with a standing fault. -/
def faulted : State := { fresh with fault := some ⟨.notInitialized, 0x008, none⟩ }

theorem ready_block (w : Width) (bs : List Byte) : (block w bs).ready := ⟨⟨rfl, rfl⟩, rfl⟩
theorem ready_busy (rs : List Request) : (busy rs).ready := ⟨⟨rfl, rfl⟩, rfl⟩

theorem decode_wrMdr0 : decode ⟨0x088, 0x04⟩ = .ok (.wrMdr0 0x04 0 0 0 0) := by decide +kernel
theorem decode_wrMdr1 : decode ⟨0x090, 0x400000000000⟩ = .ok (.wrMdr1 0 0 0 0 0 0x40) := by decide +kernel

/-- OnlyTheSixteenWordsDecode: a word of each clause, at the ends of the ranges. -/
theorem test_witness_words :
    ((0x300#10).extractLsb' 8 2 = 0b11#2 ∧ (0x3FF#10).extractLsb' 8 2 = 0b11#2) ∧
    ((0x101#10).extractLsb' 8 2 = 0b01#2 ∧ (0x101#10).extractLsb' 0 8 ≠ 0x00#8) ∧
    ((0x2FF#10).extractLsb' 8 2 = 0b10#2 ∧ (0x2FF#10).extractLsb' 0 8 ≠ 0x00#8) ∧
    ((0x0FF#10).extractLsb' 8 2 = 0b00#2 ∧ (0x0FF#10).extractLsb' 0 8 ∉
      [0x08#8, 0x10, 0x20, 0x30, 0x48, 0x50, 0x60, 0x68, 0x70, 0x88, 0x90, 0x98, 0xE0, 0xE8]) := by decide

/-- DecodedInstructionSpellsItsWord. -/
theorem test_witness_decoded : decode ⟨0x008, 0xFFFFFFFFFFFF⟩ = .ok .clrMdr0 := by rfl

/-- UnreadOperandBitsHaveNoEffect: two bundles for each kind of word, different where the word lets them differ. -/
theorem test_witness_unread :
    ((0x088#10 = 0x088#10 → (0x00FFFFFFFFFF#48).extractLsb' 0 40 = (0xFFFFFFFFFFFF#48).extractLsb' 0 40) ∧
      (0x088#10 = 0x090#10 → 0x00FFFFFFFFFF#48 = 0xFFFFFFFFFFFF#48)) ∧
    (0x098#10 = 0x098#10 ∨ 0x098#10 = 0x200#10 → (0x0000FFFFFFFF#48).extractLsb' 0 32 = (0xFFFFFFFFFFFF#48).extractLsb' 0 32) ∧
    (0x008#10 ≠ 0x090#10 ∧ 0x008#10 ≠ 0x088#10 ∧ ¬(0x008#10 = 0x098#10 ∨ 0x008#10 = 0x200#10)) := by decide

/-- ByteGoesOutMostSignificantBitFirst: the first and the last bit of 0x80. -/
theorem test_witness_wire : (wireBits 0x80)[0]? = some true ∧ (wireBits 0x80)[7]? = some false := by decide

/-- AssembledPayloadIsTheSumOfItsFields and PayloadFieldsAreTheOperands, at the masks. -/
theorem test_witness_payload :
    (WellFormed (.wrMdr0 0x03 0x0C 0x30 0x40 0x80) = true ∧
      (assembleMdr0 0x03 0x0C 0x30 0x40 0x80).toOption = some 0xFF) ∧
    (WellFormed (.wrMdr1 0x03 0x04 0x10 0x20 0x40 0x80) = true ∧
      (assembleMdr1 0x03 0x04 0x10 0x20 0x40 0x80).toOption = some 0xF7) := by decide

/-- StepRunsTheDecodedInstruction. -/
theorem test_witness_step_runs : (busy [⟨0x020, 0⟩, ⟨0x030, 0⟩]).pending = ⟨0x020, 0⟩ :: [⟨0x030, 0⟩] ∧
    decode ⟨0x020, 0⟩ = .ok .clrCntr := ⟨rfl, rfl⟩

/-- IdleStepKeepsTheState, before INIT and after it. -/
theorem test_witness_idle : (fresh.pending = [] ∧ fresh.fault = none) ∧
    ((block .four []).pending = [] ∧ (block .four []).fault = none) := by decide

/-- IllegalWordIsRecordedAndThenRefused. -/
theorem test_witness_illegal : (freshWith [⟨0x3E0, 0⟩]).accepts ∧ (freshWith [⟨0x3E0, 0⟩]).pending = [⟨0x3E0, 0⟩] ∧
    ∃ c, decode ⟨0x3E0, 0⟩ = .error c := ⟨⟨rfl, rfl⟩, rfl, .reservedKind, rfl⟩

/-- FirstFailingCheckDecidesTheFault, the standing fault and the open frame. -/
theorem test_witness_check_fault_overlap :
    ({ faulted with pending := [⟨0x100, 0⟩] } : State).fault ≠ none ∧
    ({ open_ with pending := [⟨0x018, 0⟩] } : State).fault = none ∧
    ({ open_ with pending := [⟨0x018, 0⟩] } : State).frameOpen = true := by decide

/-- FirstFailingCheckDecidesTheFault, the illegal word and the missing INIT. -/
theorem test_witness_check_word_init :
    ((freshWith [⟨0x018, 0⟩]).fault = none ∧ (freshWith [⟨0x018, 0⟩]).frameOpen = false ∧
      ∃ c, decode ⟨0x018, 0⟩ = .error c) ∧
    ((freshWith [⟨0x088, 0x04⟩]).fault = none ∧ (freshWith [⟨0x088, 0x04⟩]).frameOpen = false ∧
      decode ⟨0x088, 0x04⟩ = .ok (.wrMdr0 0x04 0 0 0 0) ∧ (freshWith [⟨0x088, 0x04⟩]).initDone = false) :=
  ⟨⟨rfl, rfl, .unassignedPair, rfl⟩, rfl, rfl, decode_wrMdr0, rfl⟩

/-- FirstFailingCheckDecidesTheFault, FIELD_RANGE at the first and at the last operand. -/
theorem test_witness_check_range :
    (decode ⟨0x088, 0x04⟩ = .ok (.wrMdr0 0x04 0 0 0 0) ∧
      (Instr.wrMdr0 0x04 0 0 0 0).maskedOperands[0]? = some (0x04, 0x03) ∧ (0x04#8 &&& ~~~0x03#8 ≠ 0)) ∧
    (decode ⟨0x090, 0x400000000000⟩ = .ok (.wrMdr1 0 0 0 0 0 0x40) ∧
      (Instr.wrMdr1 0 0 0 0 0 0x40).maskedOperands[5]? = some (0x40, 0x80) ∧ (0x40#8 &&& ~~~0x80#8 ≠ 0) ∧
      ∀ p ∈ (Instr.wrMdr1 0 0 0 0 0 0x40).maskedOperands.take 5, p.1 &&& ~~~p.2 = 0) :=
  ⟨⟨decode_wrMdr0, rfl, by decide⟩, decode_wrMdr1, rfl, by decide, by simp [Instr.maskedOperands]⟩

/-- FirstFailingCheckDecidesTheFault, a request that passes: SET_SPEED before INIT, and a bus operation after it. -/
theorem test_witness_check_pass :
    ((freshWith [⟨0x200, 0⟩]).accepts ∧ decode ⟨0x200, 0⟩ = .ok (.setSpeed 0) ∧ (Instr.setSpeed 0).isBus = false) ∧
    ((busy [⟨0x088, 0⟩]).ready ∧ decode ⟨0x088, 0⟩ = .ok (.wrMdr0 0 0 0 0 0) ∧
      ∀ p ∈ (Instr.wrMdr0 0 0 0 0 0).maskedOperands, p.1 &&& ~~~p.2 = 0) :=
  ⟨⟨⟨rfl, rfl⟩, rfl, rfl⟩, ready_busy _, by decide +kernel, by simp [Instr.maskedOperands]⟩

/-- FaultedBlockTakesNoStep, and the first clause of GenericChecks. -/
theorem test_witness_faulted : faulted.fault ≠ none := by decide

/-- MachineStopsOnlyOnAStandingFault: a refusal and a fault. -/
theorem test_witness_stops :
    step { fresh with fault := some ⟨.illegalRequest, 0x3E0, none⟩ } = .refused (.illegalRequest 0x3E0) ∧
    step faulted = .fault (.standing ⟨.notInitialized, 0x008, none⟩) := ⟨rfl, rfl⟩

/-- BusOperationsNeedInit, its three clauses. -/
theorem test_witness_needs_init : (Instr.clrStr.isBus = true ∧ fresh.accepts ∧ fresh.initDone = false) ∧
    (Instr.init.isBus = false ∧ (Instr.setSpeed 0).isBus = false) ∧
    (∃ t, exec .init fresh = .next t ∧ t.initDone = true ∧ fresh.initDone = false) :=
  ⟨⟨rfl, ⟨rfl, rfl⟩, rfl⟩, ⟨rfl, rfl⟩, _, rfl, rfl, rfl⟩

/-- The second clause of GenericChecks. -/
theorem test_witness_overlap : open_.fault = none ∧ open_.frameOpen = true := by decide

/-- FieldRangeNamesTheLowestFailingOperand for WR_MDR0, at operands 0 and 4. -/
theorem test_witness_range_mdr0 : (block .four []).ready ∧
    ([0x04#8, 0x01, 0, 0, 0][0]? = some 0x04 ∧ [0x03#8, 0x0C, 0x30, 0x40, 0x80][0]? = some 0x03 ∧ 0x04#8 &&& ~~~0x03 ≠ 0) ∧
    ([0#8, 0, 0, 0, 0x01][4]? = some 0x01 ∧ [0x03#8, 0x0C, 0x30, 0x40, 0x80][4]? = some 0x80 ∧ 0x01#8 &&& ~~~0x80 ≠ 0) :=
  ⟨ready_block _ _, by decide, by decide⟩

/-- FieldRangeNamesTheLowestFailingOperand for WR_MDR1, at operands 1 (bit 3 has no operand) and 5. -/
theorem test_witness_range_mdr1 : (block .three []).ready ∧
    ([0#8, 0x08, 0, 0, 0, 0][1]? = some 0x08 ∧ [0x03#8, 0x04, 0x10, 0x20, 0x40, 0x80][1]? = some 0x04 ∧
      0x08#8 &&& ~~~0x04 ≠ 0 ∧ 0#8 &&& ~~~0x03 = 0) ∧
    ([0#8, 0, 0, 0, 0, 0x40][5]? = some 0x40 ∧ [0x03#8, 0x04, 0x10, 0x20, 0x40, 0x80][5]? = some 0x80 ∧
      0x40#8 &&& ~~~0x80 ≠ 0) :=
  ⟨ready_block _ _, by decide, by decide⟩

/-- FaultedRequestChangesOnlyFault, for an operation and for a step on a word that spells none. -/
theorem test_witness_faulted_request :
    (∃ t, exec .clrMdr0 fresh = .next t ∧ t.fault ≠ none) ∧
    (∃ t, step (freshWith [⟨0x018, 0⟩]) = .next t ∧ t.fault ≠ none) :=
  ⟨⟨_, rfl, by decide⟩, _, rfl, by decide⟩

/-- InitConfiguresTheTransport and SetSpeedStoresThePreferenceOnly: before a first INIT and after it. -/
theorem test_witness_accepts : fresh.accepts ∧ (block .two []).accepts := ⟨⟨rfl, rfl⟩, rfl, rfl⟩

/-- The result statements of the CLEAR, READ, WRITE and LOAD families: a ready block at each width. -/
theorem test_witness_ready : (block .four []).ready ∧ (block .three []).ready ∧ (block .two []).ready ∧ (block .one []).ready :=
  ⟨ready_block _ _, ready_block _ _, ready_block _ _, ready_block _ _⟩

/-- The families' lists: their first and last members. -/
theorem test_witness_families :
    ((Instr.clrStr, 0x030#10, 0x30#8) ∈ [(Instr.clrMdr0, 0x008#10, 0x08#8), (.clrMdr1, 0x010, 0x10), (.clrCntr, 0x020, 0x20),
      (.clrStr, 0x030, 0x30)]) ∧
    ((Instr.rdStr, 0x070#10, 0x70#8) ∈ [(Instr.rdMdr0, 0x048#10, 0x48#8), (.rdMdr1, 0x050, 0x50), (.rdStr, 0x070, 0x70)]) ∧
    ((Instr.rdOtr, 0x068#10, 0x68#8) ∈ [(Instr.rdCntr, 0x060#10, 0x60#8), (.rdOtr, 0x068, 0x68)]) ∧
    ((Instr.ldOtr, 0x0E8#10, 0xE8#8) ∈ [(Instr.ldCntr, 0x0E0#10, 0xE0#8), (.ldOtr, 0x0E8, 0xE8)]) := by decide

/-- WriteMdr1SetsTheTransferWidth: a well-formed write for the first and the last byte mode. -/
theorem test_witness_wrMdr1 :
    ((0x00#8, Width.four) ∈ [(0x00#8, Width.four), (0x01, .three), (0x02, .two), (0x03, .one)] ∧
      WellFormed (.wrMdr1 0x00 0 0 0 0 0) = true) ∧
    ((0x03#8, Width.one) ∈ [(0x00#8, Width.four), (0x01, .three), (0x02, .two), (0x03, .one)] ∧
      WellFormed (.wrMdr1 0x03 0 0 0 0 0) = true) := by decide

/-- OnlyWriteMdr1ChangesTheWidth. -/
theorem test_witness_width_changes : ∃ t, exec (.wrMdr1 0x03 0 0 0 0 0) (block .four []) = .next t ∧ t.w ≠ (block .four []).w :=
  ⟨_, rfl, by decide⟩

/-- OnlyInitAndSetSpeedChangeTheBusSettings: each of the three registers changes somewhere. -/
theorem test_witness_settings_change :
    (∃ t, exec .init fresh = .next t ∧ t.initDone ≠ fresh.initDone ∧ t.busCfg ≠ fresh.busCfg) ∧
    (∃ t, exec (.setSpeed 9600) fresh = .next t ∧ t.speedPref ≠ fresh.speedPref) :=
  ⟨⟨_, rfl, by decide, by decide⟩, _, rfl, by decide⟩

/-- TraceOnlyGrows: a step that emits a frame. -/
theorem test_witness_trace : ∃ t, step (busy [encode .ldCntr]) = .next t ∧ .sel 7 ∈ newEvents (busy [encode .ldCntr]) t :=
  ⟨_, rfl, .head _⟩

/-- AcceptedRequestReturnsOneResponse: an accepted read of each form, an accepted CLEAR, and a request that faults. -/
theorem test_witness_responses :
    (∃ t, exec .rdStr (block .four [0, 1]) = .next t ∧ t.fault = none) ∧
    (∃ t, exec .rdOtr (block .one [0, 1]) = .next t ∧ t.fault = none) ∧
    (∃ t, exec .clrMdr0 (block .four [0]) = .next t ∧ t.fault = none) ∧
    (∃ t, step (freshWith [encode .rdStr]) = .next t ∧ t.fault ≠ none) :=
  ⟨⟨_, rfl, rfl⟩, ⟨_, rfl, rfl⟩, ⟨_, rfl, rfl⟩, _, rfl, by decide⟩

/-- BusOperationIsOneWholeBracket, RepeatedRequestEmitsItsFrameAgain, FrameTakesEightClockPeriodsPerByte. -/
theorem test_witness_bracket : (Instr.wrDtr 5).isBus = true ∧ WellFormed (.wrDtr 5) = true ∧ (block .two []).ready ∧
    (∃ t, exec (.wrDtr 5) (block .two []) = .next t ∧ t.fault = none) ∧
    (∃ t, exec .init (block .two []) = .next t ∧ t.fault = none ∧ Instr.init.isBus = false) :=
  ⟨rfl, rfl, ready_block _ _, ⟨_, rfl, rfl⟩, _, rfl, rfl, rfl⟩

/-- SetSpeedWaitsForTheNextInit, after INIT with a request between and before the first INIT. -/
theorem test_witness_setSpeed :
    ((busy [encode (.setSpeed 9600), encode .clrStr, encode .init]).ready ∧
      (∀ i ∈ [Instr.clrStr], i ≠ .init ∧ (∀ h, i ≠ .setSpeed h) ∧ WellFormed i = true) ∧
      (busy [encode (.setSpeed 9600), encode .clrStr, encode .init]).pending =
        encode (.setSpeed 9600) :: ([Instr.clrStr].map encode ++ [encode .init])) ∧
    ((freshWith [encode (.setSpeed 9600), encode .init]).accepts ∧
      (freshWith [encode (.setSpeed 9600), encode .init]).initDone = false ∧
      (freshWith [encode (.setSpeed 9600), encode .init]).pending = [encode (.setSpeed 9600), encode .init]) :=
  ⟨⟨ready_busy _, by simp [WellFormed], rfl⟩, ⟨rfl, rfl⟩, rfl, rfl⟩

/-- WidthChangeReachesTheNextWideAccess, at the smallest and the largest width. -/
theorem test_witness_width_reaches :
    (WellFormed (.wrMdr1 0x03 0 0 0 0 0) = true ∧ ∃ t, exec (.wrMdr1 0x03 0 0 0 0 0) (block .four []) = .next t) ∧
    (WellFormed (.wrMdr1 0x00 0 0 0 0 0) = true ∧ ∃ t, exec (.wrMdr1 0x00 0 0 0 0 0) (block .one []) = .next t) ∧
    (Instr.rdOtr, 0x68#8) ∈ [(Instr.rdCntr, 0x60#8), (.rdOtr, 0x68)] :=
  ⟨⟨rfl, _, rfl⟩, ⟨rfl, _, rfl⟩, by decide⟩

/-- EchoedDtrBytesReadBackTheLowBytes (E3): the chip answers the read with the bytes WR_DTR sent. -/
theorem test_witness_echo : (block .two [0, 0, 0, 0, 0x12, 0x34]).ready ∧
    ∃ t, exec (.wrDtr 0x00011234) (block .two [0, 0, 0, 0, 0x12, 0x34]) = .next t ∧
      t.repliesFrom (t.exchanged + 1) t.w.bytes = serialize 0x00011234 (block .two []).w :=
  ⟨ready_block _ _, _, rfl, by decide⟩

/-- NothingSentDependsOnTheReplies: two blocks whose past and coming replies differ. -/
theorem test_witness_replies :
    (∃ t, step { busy [encode .rdCntr] with responses := [.byte 1], replies := [some 1, none] } = .next t) ∧
    State.EqualButReplies { busy [encode .rdCntr] with responses := [.byte 1], replies := [some 1, none] }
      { busy [encode .rdCntr] with responses := [.byte 2], replies := [some 7] } :=
  ⟨⟨_, rfl⟩, rfl, rfl, .cons rfl .nil⟩

/-- StepKeepsTheHistoryConsistent: a consistent state from which a step runs a frame. -/
theorem consistent_busy (rs : List Request) : (busy rs).Consistent := ⟨rfl, rfl, rfl, rfl⟩

theorem test_witness_consistent : (busy [encode (.wrDtr 7)]).Consistent ∧ ∃ t, step (busy [encode (.wrDtr 7)]) = .next t :=
  ⟨consistent_busy _, _, rfl⟩

/-- StepLeavesATrueFaultRecord: a step that leaves a record. -/
theorem test_witness_faultTrue : (busy [⟨0x088, 0x04⟩]).FaultTrue ∧
    ∃ t, step (busy [⟨0x088, 0x04⟩]) = .next t ∧ t.fault ≠ none :=
  by
  refine ⟨fun f h => by simp [busy, block, State.construct] at h, _, rfl, by decide⟩

/-- WellFormedRequestsRunToASuccessfulEnd. -/
theorem test_witness_good_requests :
    (busy [encode (.wrMdr1 0x02 0 0 0 0 0), encode .rdCntr]).Consistent ∧
    (busy [encode (.wrMdr1 0x02 0 0 0 0 0), encode .rdCntr]).ready ∧
    ∀ r ∈ [encode (.wrMdr1 0x02 0 0 0 0 0), encode .rdCntr], goodRequest r = true :=
  ⟨consistent_busy _, ready_busy _, by decide⟩

/-- BootOrderRunsToASuccessfulEnd. -/
theorem test_witness_boot : ∀ r ∈ [encode (.wrMdr1 0x02 0 0 0 0 0), encode (.wrDtr 0x1234), encode .ldCntr], goodRequest r = true := by
  decide

/-- EveryScheduleKeepsTheSharedBusLegal, BlocksShareNoState: two blocks, the first of which has run INIT. -/
theorem test_witness_bus : (⟨[block .four [], State.construct 8 1000000],
    [(0, .cfgLine 7), (0, .des 7), (0, .cfg 1000000 .msbFirst .mode0)]⟩ : Bus).Legal := by
  refine ⟨by decide, fun k s h => ?_, rfl⟩
  match k, h with
  | 0, h => cases h; rfl
  | 1, h => cases h; rfl
  | k + 2, h => simp at h

/-- BlocksShareNoState: two buses that agree on block 0 only. -/
theorem test_witness_bus_block :
    (⟨[block .four [], fresh], []⟩ : Bus).blocks[0]? = (⟨[block .four []], [(0, .cfgLine 7)]⟩ : Bus).blocks[0]? := by decide

/-- ConstructedBlocksShareALegalBus, and R8: N_DEV is at least 1 and no two blocks share a line. -/
theorem test_bus_construct : (Bus.construct [(7, 1000000), (8, 9600)]).map Bus.nDev = some 2 ∧
    Bus.construct [] = none ∧ Bus.construct [(7, 1000000), (7, 9600)] = none := by decide

/-- RegisterFormsSpellTheirPair, on a register the form admits and on one it does not (R100's own example). -/
theorem test_witness_forms :
    ("read_byte", OpClass.read, [Target.mdr0, .mdr1, .str]) ∈ [("clear", OpClass.clear, [Target.mdr0, .mdr1, .cntr, .str]),
      ("read_byte", .read, [.mdr0, .mdr1, .str]), ("read_wide", .read, [.cntr, .otr]), ("load", .load, [.cntr, .otr])] ∧
    ("STR", Target.str) ∈ [("MDR0", Target.mdr0), ("MDR1", .mdr1), ("DTR", .dtr), ("CNTR", .cntr), ("OTR", .otr), ("STR", .str)] ∧
    Target.str ∈ [Target.mdr0, .mdr1, .str] ∧ Target.cntr ∉ [Target.mdr0, .mdr1, .str] := by decide

/-- AnnotationFixesTheReadResult, for a byte read and for wide reads of one and of four bytes. -/
theorem test_witness_annotation :
    (Instr.rdStr ∈ [Instr.rdMdr0, .rdMdr1, .rdStr] ∧ (block .one []).ready ∧ (block .one []).pending = []) ∧
    (Instr.rdOtr ∈ [Instr.rdCntr, .rdOtr] ∧ [0xAB#8].length = (block .one []).w.bytes) ∧
    ([1#8, 2, 3, 4].length = (block .four []).w.bytes) :=
  ⟨⟨by decide, ready_block _ _, rfl⟩, ⟨by decide, rfl⟩, rfl⟩

end Sys2Proof.Tests
end

section
/-!
Construction of several blocks on one bus (R8, R187, R70; log entry 13): when it answers a bus, and that the bus is legal.
-/
namespace Sys2Proof.Machine

theorem linesFitABus_iff {lines : List LineId} : LinesFitABus lines ↔ lines ≠ [] ∧ lines.Nodup :=
  and_congr_left' (Nat.one_le_iff_ne_zero.trans List.length_eq_zero_iff.not)

@[simp] theorem map_csLine_construct (handles : List (LineId × Word)) :
    (handles.map fun h => State.construct h.1 h.2).map State.csLine = handles.map Prod.fst := by
  rw [List.map_map]
  rfl

/-- The one way `Bus.construct` answers a bus. -/
theorem busConstruct_eq_some_iff {handles : List (LineId × Word)} {b : Bus} :
    Bus.construct handles = some b ↔
      LinesFitABus (handles.map Prod.fst) ∧ b = ⟨handles.map fun h => State.construct h.1 h.2, []⟩ := by
  rw [Bus.construct, Option.ite_none_right_eq_some, Option.some.injEq, eq_comm (b := b)]

/-- No block of a constructed bus has an event in its TRACE (R201). -/
theorem trace_eq_nil_of_mem_construct {handles : List (LineId × Word)} {s : State}
    (hs : s ∈ handles.map fun h => State.construct h.1 h.2) : s.trace = [] := by
  obtain ⟨h, -, rfl⟩ := List.mem_map.mp hs
  rfl

/-- Before any event the conditions of R70 ask only that every TRACE is empty. -/
theorem legal_of_history_nil {blocks : List State} (hl : LinesFitABus (blocks.map State.csLine))
    (ht : ∀ s ∈ blocks, s.trace = []) : Bus.Legal ⟨blocks, []⟩ :=
  ⟨hl, fun _ s hk => (ht s (List.mem_of_getElem? hk)).symm, rfl⟩

theorem legal_of_busConstruct {handles : List (LineId × Word)} {b : Bus} (h : Bus.construct handles = some b) :
    b.Legal := by
  obtain ⟨hl, rfl⟩ := busConstruct_eq_some_iff.mp h
  exact legal_of_history_nil (by rwa [map_csLine_construct]) fun _ => trace_eq_nil_of_mem_construct

theorem exists_busConstruct_iff {handles : List (LineId × Word)} :
    (∃ b, Bus.construct handles = some b) ↔ handles ≠ [] ∧ (handles.map Prod.fst).Nodup := by
  simp only [busConstruct_eq_some_iff, exists_and_left, exists_eq, and_true, linesFitABus_iff, ne_eq, List.map_eq_nil_iff]

/-- Settles O52: construction answers a bus exactly on a nonempty list of distinct lines, and then it is the one bus of
`busConstruct_eq_some_iff`, legal because nothing has happened on it. -/
theorem constructedBlocksShareALegalBus : Obligations.ConstructedBlocksShareALegalBus := by
  intro handles
  refine ⟨exists_busConstruct_iff, fun b h => ⟨legal_of_busConstruct h, ?_⟩⟩
  obtain ⟨-, rfl⟩ := busConstruct_eq_some_iff.mp h
  exact ⟨List.length_map .., rfl, rfl⟩

end Sys2Proof.Machine
end

section
/-!
The effect of an operation, said once for all fourteen bus operations: the command byte, the bytes sent, the width left and the
response returned are functions of the operation (R59, R85, R29), and its frame is put together from them (R48). INIT and
SET_SPEED are the other two.
-/
namespace Sys2Proof.Machine

/-- The command byte in an operation's request word: CMD, bits 7:0 (R85). -/
def commandOf (i : Instr) : Byte := i.req.extractLsb' 0 8

/-- The payload bytes an operation's frame sends at a Transfer Width (R59, Table 20-3). -/
def sentBytes (n : Width) : Instr → List Byte
  | .rdMdr0 | .rdMdr1 | .rdStr => [0x00]
  | .rdCntr | .rdOtr => List.replicate n.bytes 0x00
  | .wrMdr0 q c x y f => [q ||| c ||| x ||| y ||| f]
  | .wrMdr1 m e x c b y => [m ||| e ||| x ||| c ||| b ||| y]
  | .wrDtr v => serialize v n
  | .init | .clrMdr0 | .clrMdr1 | .clrCntr | .clrStr | .ldCntr | .ldOtr | .setSpeed _ => []

/-- The Transfer Width an operation leaves (R21, R147). -/
def widthAfter (n : Width) : Instr → Width
  | .wrMdr1 m _ _ _ _ _ => widthOf (m.extractLsb' 0 2)
  | .init | .clrMdr0 | .clrMdr1 | .clrCntr | .clrStr | .rdMdr0 | .rdMdr1 | .rdStr | .rdCntr | .rdOtr
  | .wrMdr0 _ _ _ _ _ | .wrDtr _ | .ldCntr | .ldOtr | .setSpeed _ => n

/-- What an operation returns to the host, given the bytes received in its payload (R29). -/
def responseOf (received : List Byte) : Instr → Response
  | .rdMdr0 | .rdMdr1 | .rdStr => .byte (received.headD 0)
  | .rdCntr | .rdOtr => .wide (deserialize received)
  | .init | .clrMdr0 | .clrMdr1 | .clrCntr | .clrStr | .wrMdr0 _ _ _ _ _ | .wrMdr1 _ _ _ _ _ _ | .wrDtr _
  | .ldCntr | .ldOtr | .setSpeed _ => .unit

theorem commandOf_busReq (c : OpClass) (t : Target) : (busReq c t).extractLsb' 0 8 = commandByte c t :=
  BitVec.extractLsb'_append_eq_right

/-- A bus operation is its frame, its response and the width it leaves. -/
theorem performed_of_isBus {i : Instr} (hb : i.isBus = true) (s : State) :
    performed i s =
      { s with
        w := widthAfter s.w i
        csN := .high
        frameOpen := false
        trace := s.trace ++ frameEvents s (commandOf i) (sentBytes s.w i)
        responses := s.responses ++ [responseOf (s.repliesFrom (s.exchanged + 1) (sentBytes s.w i).length) i]
        exchanged := s.exchanged + 1 + (sentBytes s.w i).length } := by
  cases i
  case init | setSpeed => cases hb
  all_goals
    simp [performed, commandOnly, readByte, readWide, write, frame_eq, respond, setWidth, commandOf, Instr.req,
      commandOf_busReq, sentBytes, widthAfter, responseOf, dummies, Config.dummy]

/-- INIT, with its three events (R110). -/
theorem performed_init (s : State) :
    performed .init s =
      { s with
        busCfg := some ⟨s.speedPref, .msbFirst, .mode0⟩
        csN := .high
        initDone := true
        frameOpen := false
        trace := s.trace ++ [.cfgLine s.csLine, .des s.csLine, .cfg s.speedPref .msbFirst .mode0]
        responses := s.responses ++ [.unit] } := by
  simp [performed, respond, setInitDone, configure, deselect, configureLineOutput]

/-- SET_SPEED (R165). -/
theorem performed_setSpeed (hz : Word) (s : State) :
    performed (.setSpeed hz) s = { s with speedPref := hz, responses := s.responses ++ [.unit] } := rfl

/-- INIT and SET_SPEED are the operations that are not on the bus (R172). -/
theorem isBus_or_init_or_setSpeed (i : Instr) : i.isBus = true ∨ i = .init ∨ ∃ hz, i = .setSpeed hz := by
  cases i
  case init => exact .inr (.inl rfl)
  case setSpeed hz => exact .inr (.inr ⟨hz, rfl⟩)
  all_goals exact .inl rfl

@[simp] theorem performed_w (i : Instr) (s : State) : (performed i s).w = widthAfter s.w i := by
  obtain hb | rfl | ⟨hz, rfl⟩ := isBus_or_init_or_setSpeed i
  · rw [performed_of_isBus hb]
  · rfl
  · rfl

/-- Every operation returns one response (R29). -/
theorem performed_responses (i : Instr) (s : State) :
    (performed i s).responses =
      s.responses ++ [responseOf (s.repliesFrom (s.exchanged + 1) (sentBytes s.w i).length) i] := by
  obtain hb | rfl | ⟨hz, rfl⟩ := isBus_or_init_or_setSpeed i
  · rw [performed_of_isBus hb]
  · rfl
  · rfl

/-- An operation that answers a next state has taken a fault or been performed. -/
theorem exec_next_takeFault_or_performed {i : Instr} {s t : State} (h : exec i s = .next t) :
    (∃ kind detail, t = takeFault kind i.req detail s) ∨
      ((i.isBus = true → s.initDone = true) ∧ failingOperand i = none ∧ t = performed i s) := by
  obtain ⟨-, ⟨-, rfl⟩ | ⟨-, -, -, rfl⟩ | ⟨-, -, d, -, rfl⟩ | ⟨-, hb, hw, rfl⟩⟩ := exec_next h
  · exact .inl ⟨_, _, rfl⟩
  · exact .inl ⟨_, _, rfl⟩
  · exact .inl ⟨_, _, rfl⟩
  · exact .inr ⟨hb, hw, rfl⟩

/-- A step that answers a next state was idle, or took a request and then took a fault or performed an operation. -/
theorem step_next_takeFault_or_performed {s t : State} (h : step s = .next t) :
    s.fault = none ∧
      (t = s ∨
       (∃ rest kind req detail, t = takeFault kind req detail { s with pending := rest }) ∨
       (∃ rest i, (i.isBus = true → s.initDone = true) ∧ failingOperand i = none ∧
         t = performed i { s with pending := rest })) := by
  obtain ⟨-, hf, rfl⟩ | ⟨r, rest, -, -, -, h⟩ | ⟨r, rest, i, -, -, h⟩ := step_next h
  · exact ⟨hf, .inl rfl⟩
  · obtain ⟨hf, ⟨-, rfl⟩ | ⟨-, rfl⟩⟩ := execIllegal_next h <;> exact ⟨hf, .inr (.inl ⟨_, _, _, _, rfl⟩)⟩
  · refine ⟨(exec_next h).1, .inr ?_⟩
    obtain ⟨kind, detail, rfl⟩ | ⟨hb, hw, rfl⟩ := exec_next_takeFault_or_performed h
    · exact .inl ⟨_, _, _, _, rfl⟩
    · exact .inr ⟨rest, i, hb, hw, rfl⟩

end Sys2Proof.Machine
end

section
/-!
The bus monitor's reading of what one operation emits: a whole frame (R48, R59) or the INIT sequence (R110).
-/
namespace Sys2Proof.Machine

/-! The operands of a mode-register write -/

theorem firstOutside_eq_none_iff {k : Nat} {fields : List (Byte × Byte)} :
    firstOutside k fields = none ↔ ∀ p ∈ fields, inField p.1 p.2 = true := by
  induction fields generalizing k with
  | nil => simp [firstOutside]
  | cons p rest ih =>
    obtain ⟨v, mask⟩ := p
    cases hv : inField v mask <;> simp [firstOutside, hv, ih]

/-- An operand whose field does not reach bits 1:0 leaves them 0. -/
theorem lowBits_of_inField {v mask : Byte} (h : inField v mask = true) (hm : mask.extractLsb' 0 2 = 0#2) :
    v.extractLsb' 0 2 = 0#2 := by
  have hv : (v &&& ~~~mask).extractLsb' 0 2 = 0#2 := by rw [eq_of_beq h]; rfl
  rw [BitVec.extractLsb'_and, BitVec.extractLsb'_not_of_lt (by decide), hm, BitVec.not_zero, BitVec.and_allOnes] at hv
  exact hv

/-- Bits 1:0 of a well-formed WR_MDR1 payload are its byte-mode operand's (R90, R91). -/
theorem byteMode_of_payload {m e x c b y : Byte} (h : failingOperand (.wrMdr1 m e x c b y) = none) :
    (m ||| e ||| x ||| c ||| b ||| y).extractLsb' 0 2 = m.extractLsb' 0 2 := by
  have hin := firstOutside_eq_none_iff.mp h
  simp only [Instr.maskedOperands, List.forall_mem_cons] at hin
  obtain ⟨-, he, hx, hc, hb, hy, -⟩ := hin
  simp [BitVec.extractLsb'_or, lowBits_of_inField he, lowBits_of_inField hx, lowBits_of_inField hc,
    lowBits_of_inField hb, lowBits_of_inField hy]

/-! What the monitor's tables say of each bus operation -/

/-- An operation sends as many payload bytes as Table 20-3 gives its command byte. -/
theorem payloadCount_commandOf {i : Instr} (hb : i.isBus = true) (n : Width) :
    payloadCount n (commandOf i) = some (sentBytes n i).length := by
  cases i
  case init | setSpeed => cases hb
  case rdCntr | rdOtr => simp only [sentBytes, List.length_replicate]; rfl
  case wrDtr => simp only [sentBytes, serialize_length]; rfl
  all_goals rfl

/-- A read sends dummy bytes only (R95). -/
theorem sentBytes_of_read {i : Instr} (hr : (commandOf i).extractLsb' 6 2 = 0b01#2) (n : Width) :
    ∀ out ∈ sentBytes n i, out = 0x00#8 := by
  cases i
  case rdMdr0 | rdMdr1 | rdStr => exact fun _ => List.mem_singleton.mp
  case rdCntr | rdOtr => exact fun _ => List.eq_of_mem_replicate
  case wrMdr0 | wrMdr1 | wrDtr =>
    rw [commandOf, Instr.req, commandOf_busReq] at hr
    exact absurd hr (by decide)
  all_goals exact fun _ h => absurd h List.not_mem_nil

/-- The width the monitor reads off a frame's payload is the one the operation leaves (R91, R147). -/
theorem closeWidth_eq_widthAfter {i : Instr} (hb : i.isBus = true) (hw : failingOperand i = none) (n : Width) :
    (if commandOf i = 0x90#8 then widthOf (((sentBytes n i).headD 0).extractLsb' 0 2) else n) = widthAfter n i := by
  cases i
  case init | setSpeed => cases hb
  case wrMdr1 => exact congrArg widthOf (byteMode_of_payload hw)
  all_goals rfl

@[simp] theorem dataResponses_append (rs rs' : List Response) :
    dataResponses (rs ++ rs') = dataResponses rs ++ dataResponses rs' := List.filter_append ..

/-- The result the monitor reads off a frame is the data the operation returns (R29). -/
theorem readResult_eq_dataResponses {i : Instr} (hb : i.isBus = true) {n : Width} {received : List Byte}
    (hl : received.length = (sentBytes n i).length) :
    readResult (commandOf i) received = dataResponses [responseOf received i] := by
  cases i
  case init | setSpeed => cases hb
  case rdMdr0 | rdMdr1 | rdStr =>
    obtain ⟨b, rfl⟩ := List.length_eq_one_iff.mp hl
    rfl
  all_goals rfl

/-! Frames and the INIT sequence as the monitor reads them -/

/-- The monitor counts the payload down and collects the bytes of each exchange. -/
theorem replay_payload (line : LineId) (m : Monitor) {cmd : Byte} {tx rx : List Byte} (hl : rx.length = tx.length)
    (hr : cmd.extractLsb' 6 2 = 0b01#2 → ∀ out ∈ tx, out = 0x00#8) (sent received : List Byte) :
    Monitor.replay line { m with phase := .payload cmd tx.length sent received } (List.zipWith .xchg tx rx) =
      some { m with phase := .payload cmd 0 (sent ++ tx) (received ++ rx) } := by
  induction tx generalizing rx sent received with
  | nil => simp [List.length_eq_zero_iff.mp hl, Monitor.replay]
  | cons out tx ih =>
    obtain ⟨inn, rx, rfl⟩ := List.exists_cons_of_length_eq_add_one hl
    have hout : ¬(cmd.extractLsb' 6 2 = 0b01#2 ∧ out ≠ 0x00#8) := fun ⟨hc, hne⟩ => hne (hr hc out (.head _))
    have hrest := ih (Nat.succ.inj hl) (fun hc o ho => hr hc o (.tail _ ho)) (sent ++ [out]) (received ++ [inn])
    simpa [Monitor.replay, Monitor.observe, hout] using hrest

/-- The monitor accepts a whole frame after a first INIT (R48, R173). -/
theorem replay_frameEvents {m : Monitor} {s : State} {cmd : Byte} {tx : List Byte} (hp : m.phase = .between)
    (hc : m.cfg.isSome = true) (hn : payloadCount m.width cmd = some tx.length)
    (hr : cmd.extractLsb' 6 2 = 0b01#2 → ∀ out ∈ tx, out = 0x00#8) :
    Monitor.replay s.csLine m (frameEvents s cmd tx) =
      some (m.close cmd tx (s.repliesFrom (s.exchanged + 1) tx.length)) := by
  have hpay := replay_payload s.csLine { m with level := .low } (repliesFrom_length s (s.exchanged + 1) tx.length) hr [] []
  simp only [frameEvents, List.cons_append, List.nil_append, Monitor.replay, Monitor.observe, hp, hc, hn,
    and_self, if_true, replay_append, hpay, Option.bind_some, Monitor.close]

/-- What the monitor has learned at the end of a consistent block's TRACE. -/
def State.learned (s : State) : Monitor := ⟨.between, s.w, s.busCfg, s.csN, dataResponses s.responses⟩

/-- The monitor accepts what an operation emits, and learns from it what the operation did. -/
theorem replay_performed {i : Instr} {s : State} (hb : i.isBus = true → s.busCfg.isSome = true)
    (hw : failingOperand i = none) :
    ∃ es, (performed i s).trace = s.trace ++ es ∧
      Monitor.replay s.csLine s.learned es = some (performed i s).learned := by
  obtain hbus | rfl | ⟨hz, rfl⟩ := isBus_or_init_or_setSpeed i
  · rw [performed_of_isBus hbus]
    refine ⟨_, rfl, (replay_frameEvents rfl (hb hbus) (payloadCount_commandOf hbus s.w)
      fun hr => sentBytes_of_read hr s.w).trans ?_⟩
    simp only [Monitor.close, State.learned, closeWidth_eq_widthAfter hbus hw, dataResponses_append,
      readResult_eq_dataResponses hbus (repliesFrom_length s _ (sentBytes s.w i).length)]
  · rw [performed_init]
    exact ⟨_, rfl, by simp [Monitor.replay, Monitor.observe, State.learned, dataResponses]⟩
  · rw [performed_setSpeed]
    exact ⟨[], (List.append_nil _).symm, by simp [Monitor.replay, State.learned, dataResponses]⟩

/-- INIT_DONE, BUS_CFG and CS_N stay in step (R24, R25, R26). -/
theorem performed_initDone_csN {i : Instr} {s : State} (hb : i.isBus = true → s.initDone = true)
    (hd : s.initDone = s.busCfg.isSome) (hn : s.csN = if s.initDone then .high else .undriven) :
    (performed i s).initDone = (performed i s).busCfg.isSome ∧
      (performed i s).csN = if (performed i s).initDone then .high else .undriven := by
  obtain hbus | rfl | ⟨hz, rfl⟩ := isBus_or_init_or_setSpeed i
  · rw [performed_of_isBus hbus]
    exact ⟨hd, by simp [hb hbus]⟩
  · rw [performed_init]
    exact ⟨rfl, rfl⟩
  · exact ⟨hd, hn⟩

theorem consistent_performed {i : Instr} {s : State} (hb : i.isBus = true → s.initDone = true)
    (hw : failingOperand i = none) (h : s.Consistent) : (performed i s).Consistent := by
  obtain ⟨hr, hd, hn, ho⟩ := h
  obtain ⟨es, htr, hes⟩ := replay_performed (fun hbus => hd ▸ hb hbus) hw
  obtain ⟨hd', hn'⟩ := performed_initDone_csN hb hd hn
  refine ⟨?_, hd', hn', ?_⟩
  · rw [performed_csLine, htr, replay_append, hr]
    exact hes
  · obtain hbus | rfl | ⟨hz, rfl⟩ := isBus_or_init_or_setSpeed i
    · rw [performed_of_isBus hbus]
    · rfl
    · exact ho

/-- Settles O47: the monitor reads no field that taking a request or a fault writes, and each performed operation extends TRACE
by a whole frame or INIT sequence, from which it learns what the operation did (`replay_performed`). -/
theorem stepKeepsTheHistoryConsistent : Obligations.StepKeepsTheHistoryConsistent := by
  intro s t hs h
  obtain ⟨-, rfl | ⟨_, _, _, _, rfl⟩ | ⟨rest, i, hb, hw, rfl⟩⟩ := step_next_takeFault_or_performed h
  · exact hs
  · exact hs
  · exact consistent_performed hb hw hs

end Sys2Proof.Machine
end

section
/-!
What operations and steps leave in the registers of the block, and what they return.
-/
namespace Sys2Proof.Machine

theorem wrMdr1_of_widthAfter_ne {n : Width} {i : Instr} (h : widthAfter n i ≠ n) :
    ∃ bm e x c b y, i = .wrMdr1 bm e x c b y ∧ widthAfter n i = widthOf (bm.extractLsb' 0 2) := by
  cases i
  case wrMdr1 => exact ⟨_, _, _, _, _, _, rfl, rfl⟩
  all_goals exact absurd rfl h

/-- Settles O33: a fault keeps W, and a performed operation leaves `widthAfter`, which only WR_MDR1 changes. -/
theorem onlyWriteMdr1ChangesTheWidth : Obligations.OnlyWriteMdr1ChangesTheWidth := by
  intro i s t h hne
  obtain ⟨_, _, rfl⟩ | ⟨-, -, rfl⟩ := exec_next_takeFault_or_performed h
  · exact absurd rfl hne
  · rw [performed_w] at hne ⊢
    exact wrMdr1_of_widthAfter_ne hne

/-- INIT alone writes INIT_DONE and BUS_CFG, SET_SPEED alone SPEED_PREF (R112, R23). -/
theorem performed_busSettings (i : Instr) (s : State) :
    ((performed i s).initDone ≠ s.initDone → i = .init) ∧ ((performed i s).busCfg ≠ s.busCfg → i = .init) ∧
      ((performed i s).speedPref ≠ s.speedPref → i = .setSpeed (performed i s).speedPref) := by
  obtain hb | rfl | ⟨hz, rfl⟩ := isBus_or_init_or_setSpeed i
  · rw [performed_of_isBus hb]
    exact ⟨absurd rfl, absurd rfl, absurd rfl⟩
  · exact ⟨fun _ => rfl, fun _ => rfl, absurd rfl⟩
  · exact ⟨absurd rfl, absurd rfl, fun _ => rfl⟩

/-- Settles O34: a fault keeps every one of these fields, and for a performed operation each is read off its effect. -/
theorem onlyInitAndSetSpeedChangeTheBusSettings : Obligations.OnlyInitAndSetSpeedChangeTheBusSettings := by
  intro i s t h
  obtain ⟨_, _, rfl⟩ | ⟨-, -, rfl⟩ := exec_next_takeFault_or_performed h
  · exact ⟨absurd rfl, absurd rfl, absurd rfl, rfl, rfl, rfl⟩
  · obtain ⟨hinit, hcfg, hspeed⟩ := performed_busSettings i s
    exact ⟨hinit, hcfg, hspeed, performed_csLine i s, performed_pending i s, performed_replies i s⟩

/-- Between its SEL and its DES, both on the block's own line, a frame has exchanges only (R48). -/
theorem eq_of_mem_frameEvents {s : State} {cmd : Byte} {tx : List Byte} {e : Event} (h : e ∈ frameEvents s cmd tx) :
    e = .sel s.csLine ∨ e = .des s.csLine ∨ ∃ out inn, e = .xchg out inn := by
  simp only [frameEvents, ← List.map_uncurry_zip_eq_zipWith, List.mem_append, List.mem_cons, List.mem_map,
    List.not_mem_nil, or_false] at h
  obtain ((rfl | rfl) | ⟨p, -, rfl⟩) | rfl := h
  · exact .inl rfl
  · exact .inr (.inr ⟨_, _, rfl⟩)
  · exact .inr (.inr ⟨_, _, rfl⟩)
  · exact .inr (.inl rfl)

/-- Every line that events name is `line` (R28). -/
def NamesOnly (line : LineId) (es : List Event) : Prop :=
  ∀ l, (.cfgLine l ∈ es ∨ .sel l ∈ es ∨ .des l ∈ es) → l = line

theorem namesOnly_nil (line : LineId) : NamesOnly line [] := by simp [NamesOnly]

theorem namesOnly_frameEvents (s : State) (cmd : Byte) (tx : List Byte) : NamesOnly s.csLine (frameEvents s cmd tx) := by
  rintro l (h | h | h) <;> simpa using eq_of_mem_frameEvents h

theorem performed_trace_namesOnly (i : Instr) (s : State) :
    ∃ es, (performed i s).trace = s.trace ++ es ∧ NamesOnly s.csLine es := by
  obtain hb | rfl | ⟨hz, rfl⟩ := isBus_or_init_or_setSpeed i
  · rw [performed_of_isBus hb]
    exact ⟨_, rfl, namesOnly_frameEvents s _ _⟩
  · rw [performed_init]
    exact ⟨_, rfl, by simp [NamesOnly]⟩
  · exact ⟨[], (List.append_nil _).symm, namesOnly_nil _⟩

/-- Settles O35: only a performed operation emits events, and a frame and the INIT sequence name the block's own line. -/
theorem traceOnlyGrows : Obligations.TraceOnlyGrows := by
  intro s t h
  obtain ⟨-, rfl | ⟨_, _, _, _, rfl⟩ | ⟨rest, i, -, -, rfl⟩⟩ := step_next_takeFault_or_performed h
  · exact ⟨[], (List.append_nil _).symm, namesOnly_nil _⟩
  · exact ⟨[], (List.append_nil _).symm, namesOnly_nil _⟩
  · exact performed_trace_namesOnly i _

/-- Deserialize puts nothing above the bytes it is given (R54). -/
theorem deserialize_lt (bs : List Byte) : (deserialize bs).toNat < 2 ^ (8 * bs.length) := by
  induction bs using List.reverseRecOn with
  | nil => simp [deserialize]
  | append_singleton bs b ih =>
    have hsnoc : deserialize (bs ++ [b]) = (deserialize bs <<< 8) ||| b.setWidth 32 := List.foldl_concat ..
    have hshift : (deserialize bs <<< 8).toNat < 2 ^ (8 * (bs.length + 1)) := by
      rw [BitVec.toNat_shiftLeft, Nat.shiftLeft_eq, Nat.mul_succ 8, Nat.pow_add]
      exact (Nat.mod_le _ _).trans_lt (Nat.mul_lt_mul_of_pos_right ih (by decide))
    have hbyte : (b.setWidth 32).toNat < 2 ^ (8 * (bs.length + 1)) := by
      rw [BitVec.toNat_setWidth, Nat.mod_eq_of_lt (b.isLt.trans (by decide))]
      exact b.isLt.trans_le (Nat.pow_le_pow_right (by decide) (by omega))
    rw [hsnoc, List.length_append, List.length_singleton, BitVec.toNat_or]
    exact Nat.or_lt_two_pow hshift hbyte

/-- The form of a response: a byte for the byte reads, at most W bytes for the wide reads, `unit` for every other (R29). -/
theorem responseOf_form {n : Width} {i : Instr} {received : List Byte} (hl : received.length = (sentBytes n i).length) :
    ((i = .rdMdr0 ∨ i = .rdMdr1 ∨ i = .rdStr) → ∃ v, responseOf received i = .byte v) ∧
      ((i = .rdCntr ∨ i = .rdOtr) → ∃ v, responseOf received i = .wide v ∧ v.toNat < 2 ^ (8 * n.bytes)) ∧
      (i ≠ .rdMdr0 → i ≠ .rdMdr1 → i ≠ .rdStr → i ≠ .rdCntr → i ≠ .rdOtr → responseOf received i = .unit) := by
  refine ⟨?_, ?_, ?_⟩
  · rintro (rfl | rfl | rfl) <;> exact ⟨_, rfl⟩
  · have hlt (hlen : received.length = n.bytes) : (deserialize received).toNat < 2 ^ (8 * n.bytes) :=
      hlen ▸ deserialize_lt received
    rintro (rfl | rfl) <;> exact ⟨_, rfl, hlt (hl.trans List.length_replicate)⟩
  · intros
    cases i
    case rdMdr0 | rdMdr1 | rdStr | rdCntr | rdOtr => contradiction
    all_goals rfl

/-- Settles O36: with FAULT none the operation was performed, and a performed operation keeps FAULT, so a step that leaves one
set has taken it. -/
theorem acceptedRequestReturnsOneResponse : Obligations.AcceptedRequestReturnsOneResponse := by
  constructor
  · intro i s t h hf
    obtain ⟨_, _, rfl⟩ | ⟨-, -, rfl⟩ := exec_next_takeFault_or_performed h
    · cases hf
    · exact ⟨_, performed_responses i s, responseOf_form (repliesFrom_length s _ _)⟩
  · intro s t h hne
    obtain ⟨hf, rfl | ⟨_, _, _, _, rfl⟩ | ⟨rest, i, -, -, rfl⟩⟩ := step_next_takeFault_or_performed h
    · exact absurd hf hne
    · rfl
    · exact (hne ((performed_fault i _).trans hf)).elim

/-- Settles O15: the step's own case of a request that decodes. -/
theorem stepRunsTheDecodedInstruction : Obligations.StepRunsTheDecodedInstruction := by
  intro s r rest i hp hd
  rw [step_of_request hp, hd]

end Sys2Proof.Machine
end

section
/-!
A move of one block on a shared bus (R35, R187).
-/
namespace Sys2Proof.Machine

theorem stepOf_other (k : Nat) (b : Bus) {j : Nat} (hj : j ≠ k) : (Bus.stepOf k b).blocks[j]? = b.blocks[j]? := by
  obtain h | ⟨s, t, -, -, h⟩ := stepOf_cases k b
  · rw [h]
  · rw [h]
    exact List.getElem?_set_ne hj.symm

theorem stepOf_csLines (k : Nat) (b : Bus) :
    (Bus.stepOf k b).blocks.map State.csLine = b.blocks.map State.csLine := by
  obtain h | ⟨s, t, hk, hs, h⟩ := stepOf_cases k b
  · rw [h]
  · obtain ⟨hlt, rfl⟩ := List.getElem?_eq_some_iff.mp hk
    have hline : t.csLine = (b.blocks.map State.csLine)[k]'(by rwa [List.length_map]) := by
      rw [List.getElem_map]
      exact step_csLine hs
    rw [h, List.map_set, hline, List.set_getElem_self]

/-- Two buses that hold the same block under a number move it alike. -/
theorem stepOf_congr {k : Nat} {b b' : Bus} (hb : b'.blocks[k]? = b.blocks[k]?) :
    (Bus.stepOf k b').blocks[k]? = (Bus.stepOf k b).blocks[k]? ∧
      ∃ es, (Bus.stepOf k b).history = b.history ++ es ∧ (Bus.stepOf k b').history = b'.history ++ es := by
  by_cases h : ∃ s t, b.blocks[k]? = some s ∧ step s = .next t
  · obtain ⟨s, t, hk, hs⟩ := h
    rw [stepOf_next hk hs, stepOf_next (hb.trans hk) hs]
    refine ⟨?_, _, rfl, rfl⟩
    rw [List.getElem?_set_self', List.getElem?_set_self', hb]
  · have stop : Bus.stepOf k b = b := stepOf_stop fun s t hk hs => h ⟨s, t, hk, hs⟩
    have stop' : Bus.stepOf k b' = b' := stepOf_stop fun s t hk hs => h ⟨s, t, hb ▸ hk, hs⟩
    rw [stop, stop']
    exact ⟨hb, [], (List.append_nil _).symm, (List.append_nil _).symm⟩

/-- Settles O54: a move writes its own entry of the list of blocks alone, keeps its line, and is made of that entry alone. -/
theorem blocksShareNoState : Obligations.BlocksShareNoState := fun k b =>
  ⟨fun _ => stepOf_other k b, stepOf_csLines k b, fun _ => stepOf_congr⟩

end Sys2Proof.Machine
end

section
/-!
Two blocks that differ at most in what the chip returns (R71, R61, R51): every step keeps them so.
-/
namespace Sys2Proof.Machine

/-- The second block is the first with other replies, other bytes received and other values returned. -/
theorem equalButReplies_iff {s s' : State} : s.EqualButReplies s' ↔
    ∃ replies trace responses, s' = { s with replies := replies, trace := trace, responses := responses } ∧
      trace.map Event.sentView = s.trace.map Event.sentView ∧
      List.Forall₂ (fun r r' => Response.sameForm r r' = true) s.responses responses := by
  constructor
  · exact fun ⟨he, ht, hr⟩ => ⟨_, _, _, he, ht, hr⟩
  · rintro ⟨_, _, _, rfl, ht, hr⟩
    exact ⟨rfl, ht, hr⟩

/-- What the chip returns is none of what the checks read (R172). -/
theorem equalButReplies_checked {s s' : State} (h : s.EqualButReplies s') :
    s'.fault = s.fault ∧ s'.frameOpen = s.frameOpen ∧ s'.initDone = s.initDone ∧ s'.pending = s.pending := by
  obtain ⟨_, _, _, rfl, -, -⟩ := equalButReplies_iff.mp h
  exact ⟨rfl, rfl, rfl, rfl⟩

/-- The second answer follows the first: where the first is a next state, so is the second, and the two differ at most in what
the chip returns. -/
def AnswersAlike (a a' : Answer) : Prop := ∀ t, a = .next t → ∃ t', a' = .next t' ∧ t.EqualButReplies t'

theorem answersAlike_next {t t' : State} (h : t.EqualButReplies t') : AnswersAlike (.next t) (.next t') := by
  rintro _ ⟨⟩
  exact ⟨t', rfl, h⟩

theorem answersAlike_standing (f : FaultRecord) (a : Answer) : AnswersAlike (standing f) a :=
  fun t h => absurd h (standing_ne_next f t)

/-! What the generic checks and a fault keep -/

theorem equalButReplies_takeFault {s s' : State} (h : s.EqualButReplies s') (kind : FaultKind) (req : ReqWord)
    (detail : Option FieldDetail) : (takeFault kind req detail s).EqualButReplies (takeFault kind req detail s') := by
  obtain ⟨_, _, _, rfl, ht, hr⟩ := equalButReplies_iff.mp h
  exact ⟨rfl, ht, hr⟩

theorem equalButReplies_pending {s s' : State} (h : s.EqualButReplies s') (rest : List Request) :
    State.EqualButReplies { s with pending := rest } { s' with pending := rest } := by
  obtain ⟨_, _, _, rfl, ht, hr⟩ := equalButReplies_iff.mp h
  exact ⟨rfl, ht, hr⟩

/-- The generic checks read nothing the chip returns. -/
theorem answersAlike_accept {s s' : State} (h : s.EqualButReplies s') (req : ReqWord) {k : State → Answer}
    (hk : AnswersAlike (k s) (k s')) : AnswersAlike (accept req k s) (accept req k s') := by
  obtain ⟨hfault, hopen, -, -⟩ := equalButReplies_checked h
  cases hf : s.fault with
  | some f =>
    rw [accept_of_fault hf]
    exact answersAlike_standing f _
  | none =>
    cases ho : s.frameOpen with
    | true =>
      rw [accept_of_frameOpen hf ho, accept_of_frameOpen (hfault.trans hf) (hopen.trans ho)]
      exact answersAlike_next (equalButReplies_takeFault h _ _ _)
    | false => rwa [accept_of_accepts ⟨hf, ho⟩, accept_of_accepts ⟨hfault.trans hf, hopen.trans ho⟩]

/-! What performing an operation keeps -/

/-- The bytes a frame sends are its command byte and its payload, whatever it receives. -/
theorem sentView_frameEvents (s : State) (cmd : Byte) (tx : List Byte) :
    (frameEvents s cmd tx).map Event.sentView =
      [.sel s.csLine, .xchg cmd 0] ++ tx.map (Event.xchg · 0) ++ [.des s.csLine] := by
  have hpay : (List.zipWith Event.xchg tx (s.repliesFrom (s.exchanged + 1) tx.length)).map Event.sentView =
      tx.map (Event.xchg · 0) := by
    have hl : tx.length ≤ (s.repliesFrom (s.exchanged + 1) tx.length).length := (repliesFrom_length ..).ge
    conv_rhs => rw [← List.map_fst_zip hl]
    rw [← List.map_uncurry_zip_eq_zipWith, List.map_map, List.map_map]
    rfl
  simp [frameEvents, hpay, Event.sentView]

/-- The form of a response is its operation's, whatever the bytes received. -/
theorem sameForm_responseOf (received received' : List Byte) (i : Instr) :
    Response.sameForm (responseOf received i) (responseOf received' i) = true := by
  cases i <;> rfl

theorem equalButReplies_performed {s s' : State} (h : s.EqualButReplies s') (i : Instr) :
    (performed i s).EqualButReplies (performed i s') := by
  obtain ⟨replies, trace, responses, rfl, ht, hr⟩ := equalButReplies_iff.mp h
  have hresp (received received' : List Byte) :=
    List.rel_append hr (.cons (sameForm_responseOf received received' i) .nil)
  obtain hb | rfl | ⟨hz, rfl⟩ := isBus_or_init_or_setSpeed i
  · simp only [performed_of_isBus hb]
    exact ⟨rfl, by simp only [List.map_append, ht, sentView_frameEvents], hresp _ _⟩
  · simp only [performed_init]
    exact ⟨rfl, by simp only [List.map_append, ht], hresp [] []⟩
  · exact ⟨rfl, ht, hresp [] []⟩

theorem answersAlike_outcome {s s' : State} (h : s.EqualButReplies s') (i : Instr) :
    AnswersAlike (outcome i s) (outcome i s') := by
  obtain ⟨-, -, hinit, -⟩ := equalButReplies_checked h
  rw [outcome, outcome, hinit]
  split
  · exact answersAlike_next (equalButReplies_takeFault h _ _ _)
  · cases failingOperand i with
    | some d => exact answersAlike_next (equalButReplies_takeFault h _ _ _)
    | none => exact answersAlike_next (equalButReplies_performed h i)

theorem answersAlike_exec {s s' : State} (h : s.EqualButReplies s') (i : Instr) : AnswersAlike (exec i s) (exec i s') := by
  rw [exec_eq, exec_eq]
  exact answersAlike_accept h _ (answersAlike_outcome h i)

theorem answersAlike_execIllegal {s s' : State} (h : s.EqualButReplies s') (req : ReqWord) :
    AnswersAlike (execIllegal req s) (execIllegal req s') :=
  answersAlike_accept h _ (answersAlike_next (equalButReplies_takeFault h _ _ _))

theorem answersAlike_idle {s s' : State} (h : s.EqualButReplies s') : AnswersAlike (idle s) (idle s') := by
  obtain ⟨hfault, -, -, -⟩ := equalButReplies_checked h
  rw [idle, idle, hfault]
  cases s.fault with
  | some f => exact answersAlike_standing f _
  | none => exact answersAlike_next h

theorem answersAlike_step {s s' : State} (h : s.EqualButReplies s') : AnswersAlike (step s) (step s') := by
  obtain ⟨-, -, -, hpending⟩ := equalButReplies_checked h
  cases hp : s.pending with
  | nil =>
    rw [step_of_idle hp, step_of_idle (hpending.trans hp)]
    exact answersAlike_idle h
  | cons r rest =>
    have hrest := equalButReplies_pending h rest
    rw [step_of_request hp, step_of_request (hpending.trans hp)]
    cases decode r with
    | error c => exact answersAlike_execIllegal hrest r.req
    | ok i => exact answersAlike_exec hrest i

/-- Settles O43: no check reads what the chip returns, and an operation's effect (`performed_of_isBus`) puts it only into the
bytes received in TRACE and the value of the response. -/
theorem nothingSentDependsOnTheReplies : Obligations.NothingSentDependsOnTheReplies :=
  fun _ _ t h => answersAlike_step h t

end Sys2Proof.Machine
end

section
/-!
The shared history of several blocks under every schedule (R70, R8).
-/
namespace Sys2Proof.Machine

/-! What one block's step adds to the shared history -/

/-- Within a frame the exchanges keep the hold (R70). -/
theorem hold_payload (k : Nat) (tx rx : List Byte) :
    Hold.replay (.inFrame k) ((List.zipWith .xchg tx rx).map (Prod.mk k)) = some (.inFrame k) := by
  induction tx generalizing rx with
  | nil => rfl
  | cons out tx ih =>
    cases rx with
    | nil => rfl
    | cons inn rx => simpa [Hold.replay, Hold.observe] using ih rx

/-- A whole frame takes the bus and frees it again. -/
theorem hold_frameEvents (k : Nat) (s : State) (cmd : Byte) (tx : List Byte) :
    Hold.replay .free ((frameEvents s cmd tx).map (Prod.mk k)) = some .free := by
  have htake : Hold.replay .free ([Event.sel s.csLine, .xchg cmd (s.reply s.exchanged)].map (Prod.mk k)) =
      some (.inFrame k) := by
    simp [Hold.replay, Hold.observe]
  have hfree : Hold.replay (.inFrame k) ([Event.des s.csLine].map (Prod.mk k)) = some .free := by
    simp [Hold.replay, Hold.observe]
  simp only [frameEvents, List.map_append, hold_append, htake, hold_payload, hfree, Option.bind_some]

/-- Events that one block may add to a free bus, and that leave it free. -/
def HoldsWhole (es : List Event) : Prop := ∀ k, Hold.replay .free (es.map (Prod.mk k)) = some .free

theorem holdsWhole_nil : HoldsWhole [] := fun _ => rfl

theorem performed_trace_holdsWhole (i : Instr) (s : State) :
    ∃ es, (performed i s).trace = s.trace ++ es ∧ HoldsWhole es := by
  obtain hb | rfl | ⟨hz, rfl⟩ := isBus_or_init_or_setSpeed i
  · rw [performed_of_isBus hb]
    exact ⟨_, rfl, fun k => hold_frameEvents k s _ _⟩
  · rw [performed_init]
    exact ⟨_, rfl, fun k => by simp [Hold.replay, Hold.observe]⟩
  · exact ⟨[], (List.append_nil _).symm, holdsWhole_nil⟩

/-- A step adds to TRACE nothing, one whole frame or one INIT sequence. -/
theorem step_trace_holdsWhole {s t : State} (h : step s = .next t) :
    t.trace = s.trace ++ newEvents s t ∧ HoldsWhole (newEvents s t) := by
  have grows : ∃ es, t.trace = s.trace ++ es ∧ HoldsWhole es := by
    obtain ⟨-, rfl | ⟨_, _, _, _, rfl⟩ | ⟨rest, i, -, -, rfl⟩⟩ := step_next_takeFault_or_performed h
    · exact ⟨[], (List.append_nil _).symm, holdsWhole_nil⟩
    · exact ⟨[], (List.append_nil _).symm, holdsWhole_nil⟩
    · exact performed_trace_holdsWhole i _
  obtain ⟨es, ht, hes⟩ := grows
  have hnew : newEvents s t = es := by rw [newEvents, ht, List.drop_left]
  rw [hnew]
  exact ⟨ht, hes⟩

/-! The part of the shared history that is one block's -/

/-- The events of block `j`, in the order of the shared history (R70, condition 1). -/
def eventsOf (j : Nat) (history : List (Nat × Event)) : List Event := (history.filter (·.1 == j)).map (·.2)

@[simp] theorem eventsOf_append (j : Nat) (h h' : List (Nat × Event)) :
    eventsOf j (h ++ h') = eventsOf j h ++ eventsOf j h' := by
  simp [eventsOf]

@[simp] theorem eventsOf_self (k : Nat) (es : List Event) : eventsOf k (es.map (Prod.mk k)) = es := by
  simp [eventsOf, List.filter_map, Function.comp_def]

theorem eventsOf_other {j k : Nat} (hj : j ≠ k) (es : List Event) : eventsOf j (es.map (Prod.mk k)) = [] := by
  simp [eventsOf, List.filter_map, Function.comp_def, hj.symm]

/-- The three conditions of R70 on the shared history, the first in the terms of `eventsOf`. -/
theorem legal_iff {b : Bus} : b.Legal ↔
    LinesFitABus (b.blocks.map State.csLine) ∧
      (∀ j s, b.blocks[j]? = some s → eventsOf j b.history = s.trace) ∧ Hold.replay .free b.history = some .free :=
  Iff.rfl

/-! Moves and schedules -/

theorem stepOf_legal (k : Nat) {b : Bus} (h : b.Legal) : (Bus.stepOf k b).Legal := by
  obtain ⟨hlines, hevents, hhold⟩ := legal_iff.mp h
  have hlines' := stepOf_csLines k b
  have hother : ∀ j, j ≠ k → (Bus.stepOf k b).blocks[j]? = b.blocks[j]? := fun _ => stepOf_other k b
  obtain he | ⟨s, t, hk, hs, he⟩ := stepOf_cases k b
  · rwa [he]
  obtain ⟨htrace, hwhole⟩ := step_trace_holdsWhole hs
  rw [he] at hlines' hother ⊢
  refine legal_iff.mpr ⟨hlines' ▸ hlines, fun j u hj => ?_, ?_⟩
  · rw [eventsOf_append]
    by_cases hjk : j = k
    · subst hjk
      rw [List.getElem?_set_self (List.getElem?_eq_some_iff.mp hk).1, Option.some.injEq] at hj
      rw [eventsOf_self, hevents j s hk, ← htrace, hj]
    · rw [eventsOf_other hjk, List.append_nil]
      exact hevents j u ((hother j hjk).symm.trans hj)
  · rw [hold_append, hhold]
    exact hwhole k

theorem stepOf_nDev (k : Nat) (b : Bus) : (Bus.stepOf k b).nDev = b.nDev := by
  obtain h | ⟨s, t, -, -, h⟩ := stepOf_cases k b
  · rw [h]
  · rw [h]
    exact List.length_set ..

/-- Settles O53: by induction on the schedule, since each move keeps the bus legal and the number of its blocks. -/
theorem everyScheduleKeepsTheSharedBusLegal : Obligations.EveryScheduleKeepsTheSharedBusLegal := by
  intro ks
  induction ks with
  | nil => exact fun b h => ⟨h, rfl⟩
  | cons k ks ih =>
    intro b h
    obtain ⟨hlegal, hdev⟩ := ih (Bus.stepOf k b) (stepOf_legal k h)
    exact ⟨hlegal, hdev.trans (stepOf_nDev k b)⟩

end Sys2Proof.Machine
end

section
/-!
The byte order of a wide value (R53, R54, R55) and the bit order of a byte (R52).
-/
namespace Sys2Proof.Machine

/-! Deserialize (R54) -/

/-- While there is room above, Deserialize appends each further byte below those before it. -/
theorem toNat_deserialize_snoc {bs : List Byte} (hl : bs.length < 4) {n : Nat} {x : BitVec n}
    (h : (deserialize bs).toNat = x.toNat) (b : Byte) : (deserialize (bs ++ [b])).toNat = (x ++ b).toNat := by
  have hsnoc : deserialize (bs ++ [b]) = (deserialize bs <<< 8) ||| b.setWidth 32 := List.foldl_concat ..
  have hroom : (deserialize bs).toNat <<< 8 < 2 ^ 32 := by
    have hlt := (deserialize_lt bs).trans_le (Nat.pow_le_pow_right (by decide) (show 8 * bs.length ≤ 24 by omega))
    omega
  rw [hsnoc, BitVec.toNat_or, BitVec.toNat_shiftLeft, BitVec.toNat_setWidth_of_le (by decide), Nat.mod_eq_of_lt hroom, h,
    BitVec.toNat_append]

/-- One byte stands below zeros, however many of them are counted in. -/
theorem toNat_deserialize_singleton (k : Nat) (b : Byte) : (deserialize [b]).toNat = (0#k ++ b).toNat :=
  toNat_deserialize_snoc (bs := []) (by decide) (by simp [deserialize]) b

/-- Settles O10: each width starts from its first byte, with zeros above it or none, and appends the others one by one. -/
theorem deserializeAssemblesMsbFirstWithoutSign : Obligations.DeserializeAssemblesMsbFirstWithoutSign := by
  intro a b c d
  have zeros (k : Nat) : (0#k ++ a).toNat = a.toNat := by simp
  have first : (deserialize [a]).toNat = a.toNat := (toNat_deserialize_singleton 24 a).trans (zeros 24)
  have second (e f : Byte) {n : Nat} {x : BitVec n} (h : (deserialize [e]).toNat = x.toNat) :
      (deserialize [e, f]).toNat = (x ++ f).toNat := toNat_deserialize_snoc (bs := [e]) (by simp) h f
  have third (e f g : Byte) {n : Nat} {x : BitVec n} (h : (deserialize [e]).toNat = x.toNat) :
      (deserialize [e, f, g]).toNat = (x ++ f ++ g).toNat :=
    toNat_deserialize_snoc (bs := [e, f]) (by simp) (second e f h) g
  have four : (deserialize [a, b, c, d]).toNat = (a ++ b ++ c ++ d).toNat :=
    toNat_deserialize_snoc (bs := [a, b, c]) (by simp) (third a b c first) d
  exact ⟨BitVec.eq_of_toNat_eq four, BitVec.eq_of_toNat_eq (third b c d (toNat_deserialize_singleton 8 b)),
    BitVec.eq_of_toNat_eq (second c d (toNat_deserialize_singleton 16 c)),
    BitVec.eq_of_toNat_eq (toNat_deserialize_singleton 24 d)⟩

/-! Serialize (R53) -/

/-- Settles O9: the four widths, written out. -/
theorem serializeSendsTheLowBytesMsbFirst : Obligations.SerializeSendsTheLowBytesMsbFirst :=
  fun _ => ⟨rfl, rfl, rfl, rfl⟩

/-- The first `j` of the `n` bytes that Serialize sends assemble to bits `8n-1` down to `8(n-j)` of the value. -/
theorem toNat_deserialize_leading (v : Word) {n j : Nat} (hn : n ≤ 4) (hj : j ≤ n) :
    (deserialize ((List.range j).map fun k => v.extractLsb' (8 * (n - 1 - k)) 8)).toNat =
      (v.extractLsb' (8 * (n - j)) (8 * j)).toNat := by
  induction j with
  | zero => simp [deserialize]
  | succ j ih =>
    have hbits : 8 * (n - j) = 8 * (n - 1 - j) + 8 := by omega
    rw [List.range_succ, List.map_append, List.map_singleton,
      toNat_deserialize_snoc (by rw [List.length_map, List.length_range]; omega) (ih (by omega)),
      BitVec.extractLsb'_append_extractLsb'_eq_extractLsb' hbits, Nat.sub_sub, Nat.add_comm 1 j]
    rfl

/-- Masking with `2^k - 1` keeps the low `k` bits. -/
theorem toNat_and_mask (v : Word) {k : Nat} (hk : k ≤ 32) :
    (v &&& BitVec.ofNat 32 (2 ^ k - 1)).toNat = v.toNat % 2 ^ k := by
  have hmask : 2 ^ k - 1 < 2 ^ 32 :=
    (Nat.sub_lt (Nat.two_pow_pos k) Nat.one_pos).trans_le (Nat.pow_le_pow_right (by decide) hk)
  rw [BitVec.toNat_and, BitVec.toNat_ofNat, Nat.mod_eq_of_lt hmask, Nat.and_two_pow_sub_one_eq_mod]

theorem Width.bytes_le (n : Width) : n.bytes ≤ 4 := by cases n <;> decide

/-- What was sent reads back without the bits above the low n bytes (R55). -/
theorem deserialize_serialize (v : Word) (n : Width) :
    deserialize (serialize v n) = v &&& BitVec.ofNat 32 (2 ^ (8 * n.bytes) - 1) := by
  have hn := Width.bytes_le n
  apply BitVec.eq_of_toNat_eq
  rw [toNat_and_mask v (by omega), serialize, toNat_deserialize_leading v hn le_rfl, Nat.sub_self,
    BitVec.extractLsb'_toNat]
  rfl

/-- Settles O11: the round trip, and WR_DTR, which no value keeps from being performed. -/
theorem wideWriteDropsTheHighBitsSilently : Obligations.WideWriteDropsTheHighBitsSilently := by
  refine ⟨deserialize_serialize, fun v s hs => ⟨_, exec_of_ready hs rfl, ?_, ?_⟩⟩
  · rw [performed_fault]
    exact hs.1.1
  · rw [performed_of_isBus rfl]
    rfl

/-! The bits of a byte on the wire (R52) -/

theorem wireBits_eq (b : Byte) : wireBits b = (List.range 8).map fun k => b.getLsbD (7 - k) := rfl

theorem shiftRight_eq_two_mul_add_testBit (n k : Nat) : n >>> k = 2 * n >>> (k + 1) + (n.testBit k).toNat := by
  rw [Nat.toNat_testBit, Nat.shiftRight_succ, Nat.shiftRight_eq_div_pow]
  omega

/-- The first `j` bits on the wire, read as a binary number, are the byte without its low `8 - j` bits. -/
theorem foldl_leading_bits (b : Byte) {j : Nat} (hj : j ≤ 8) :
    ((List.range j).map fun k => b.getLsbD (7 - k)).foldl (fun acc x => 2 * acc + x.toNat) 0 = b.toNat >>> (8 - j) := by
  induction j with
  | zero => exact (Nat.shiftRight_eq_zero _ _ b.isLt).symm
  | succ j ih =>
    rw [List.range_succ, List.map_append, List.map_singleton, List.foldl_concat, ih (by omega),
      shiftRight_eq_two_mul_add_testBit b.toNat (8 - (j + 1)), show 8 - (j + 1) + 1 = 8 - j by omega,
      show 8 - (j + 1) = 7 - j by omega]
    rfl

/-- Settles O12: the wire's bits are the byte's from 7 down, so reading all eight loses none. -/
theorem byteGoesOutMostSignificantBitFirst : Obligations.ByteGoesOutMostSignificantBitFirst := by
  intro b
  rw [wireBits_eq]
  exact ⟨by simp, fun k hk => by simp [hk], foldl_leading_bits b le_rfl⟩

end Sys2Proof.Machine
end

section
/-!
Whole frames on a ready block (R50, R62), and the width the next wide access finds (R64, R207).
-/
namespace Sys2Proof.Machine

/-- A well-formed bus operation on a ready block appends its own whole frame and leaves the block ready, with CS_N HIGH. -/
theorem exec_bus_of_ready {i : Instr} {s : State} (hb : i.isBus = true) (hw : WellFormed i = true) (hs : s.ready) :
    exec i s = .next (performed i s) ∧ (performed i s).ready ∧ (performed i s).csN = .high ∧
      (performed i s).trace = s.trace ++ frameEvents s (commandOf i) (sentBytes s.w i) :=
  ⟨exec_of_ready hs hw, ⟨performed_accepts hs.1 i, performed_initDone hs.2 i⟩, by rw [performed_of_isBus hb],
    by rw [performed_of_isBus hb]⟩

/-- The exchanges of a frame, between its SEL and its DES (R48). -/
def exchangesOf (s : State) (cmd : Byte) (tx : List Byte) : List Event :=
  .xchg cmd (s.reply s.exchanged) :: List.zipWith .xchg tx (s.repliesFrom (s.exchanged + 1) tx.length)

theorem frameEvents_eq (s : State) (cmd : Byte) (tx : List Byte) :
    frameEvents s cmd tx = [.sel s.csLine] ++ exchangesOf s cmd tx ++ [.des s.csLine] := rfl

theorem exchangesOf_length (s : State) (cmd : Byte) (tx : List Byte) : (exchangesOf s cmd tx).length = 1 + tx.length := by
  simp [exchangesOf, Nat.add_comm]

theorem eq_xchg_of_mem_exchangesOf {s : State} {cmd : Byte} {tx : List Byte} {e : Event}
    (h : e ∈ exchangesOf s cmd tx) : ∃ out inn, e = .xchg out inn := by
  rw [exchangesOf, ← List.map_uncurry_zip_eq_zipWith, List.mem_cons, List.mem_map] at h
  obtain rfl | ⟨p, -, rfl⟩ := h
  · exact ⟨_, _, rfl⟩
  · exact ⟨_, _, rfl⟩

/-- Settles O37: the frame of `exec_bus_of_ready`, taken apart at its SEL and its DES. -/
theorem busOperationIsOneWholeBracket : Obligations.BusOperationIsOneWholeBracket := by
  intro i s hb hw hs
  obtain ⟨hx, ⟨⟨hf, ho⟩, -⟩, hcs, htr⟩ := exec_bus_of_ready hb hw hs
  rw [frameEvents_eq] at htr
  exact ⟨_, exchangesOf s (commandOf i) (sentBytes s.w i), _, hx, hf, hcs, ho, htr, fun _ => eq_xchg_of_mem_exchangesOf,
    payloadCount_commandOf hb s.w, exchangesOf_length ..⟩

/-- An operation that changes the width sends the same bytes at every width. -/
theorem sentBytes_widthAfter (n : Width) (i : Instr) : sentBytes (widthAfter n i) i = sentBytes n i := by
  cases i <;> rfl

/-- Settles O38: the first operation leaves the block ready for the second, and what it sends does not change with the
width it leaves. -/
theorem repeatedRequestEmitsItsFrameAgain : Obligations.RepeatedRequestEmitsItsFrameAgain := by
  intro i s hb hw hs
  obtain ⟨hx, hready, -, htr⟩ := exec_bus_of_ready hb hw hs
  obtain ⟨hx', hready', -, htr'⟩ := exec_bus_of_ready hb hw hready
  rw [performed_w, sentBytes_widthAfter] at htr'
  exact ⟨_, _, sentBytes s.w i, hx, hready.1.1, hx', hready'.1.1, payloadCount_commandOf hb s.w, htr, htr'⟩

/-- A byte mode in its field stands for 4, 3, 2 or 1 bytes (R91). -/
theorem bytes_widthOf {bm : Byte} (h : inField bm 0x03 = true) :
    (widthOf (bm.extractLsb' 0 2)).bytes = 4 - bm.toNat := by
  revert bm
  decide

/-- The byte mode of a well-formed WR_MDR1 lies in its field. -/
theorem inField_mode {m e x c b y : Byte} (hw : WellFormed (.wrMdr1 m e x c b y) = true) : inField m 0x03 = true :=
  firstOutside_eq_none_iff.mp ((wellFormed_iff _).mp hw) (m, 0x03) (.head _)

/-- A wide read on a ready block moves as many bytes as W stands for and returns those received (R134). -/
theorem wideRead_of_ready {t : State} {n : Nat} (ht : t.ready) (hn : t.w.bytes = n) {i : Instr} {cmd : Byte}
    (hi : (i, cmd) ∈ [(Instr.rdCntr, 0x60#8), (.rdOtr, 0x68)]) :
    ∃ u, exec i t = .next u ∧ u.trace = t.trace ++ frameEvents t cmd (List.replicate n 0x00) ∧
      u.responses = t.responses ++ [.wide (deserialize (t.repliesFrom (t.exchanged + 1) n))] := by
  obtain ⟨hw, hread⟩ : WellFormed i = true ∧ performed i t = readWide cmd t := by
    obtain ⟨rfl, rfl⟩ | ⟨rfl, rfl⟩ : i = .rdCntr ∧ cmd = 0x60#8 ∨ i = .rdOtr ∧ cmd = 0x68#8 := by simpa using hi
    · exact ⟨rfl, rfl⟩
    · exact ⟨rfl, rfl⟩
  refine ⟨_, exec_of_ready ht hw, ?_⟩
  rw [hread, readWide_eq, hn]
  exact ⟨rfl, rfl⟩

/-- WR_DTR on a ready block sends as many of the value's low bytes as W stands for (R148). -/
theorem wrDtr_of_ready {t : State} {n : Nat} (ht : t.ready) (hn : t.w.bytes = n) (v : Word) :
    ∃ u, exec (.wrDtr v) t = .next u ∧
      u.trace = t.trace ++ frameEvents t 0x98 ((List.range n).map fun k => v.extractLsb' (8 * (n - 1 - k)) 8) ∧
      u.responses = t.responses ++ [.unit] := by
  subst hn
  obtain ⟨hx, -, -, htr⟩ := exec_bus_of_ready (i := .wrDtr v) rfl rfl ht
  exact ⟨_, hx, htr, performed_responses (.wrDtr v) t⟩

/-- Settles O41: WR_MDR1 leaves the block ready at the width `bytes_widthOf` counts, and each wide access then runs its
frame at that width. -/
theorem widthChangeReachesTheNextWideAccess : Obligations.WidthChangeReachesTheNextWideAccess := by
  intro s t bm e x c b y hs hw h
  obtain ⟨hx, hready, -, htr⟩ := exec_bus_of_ready rfl hw hs
  obtain rfl : performed _ s = t := Host.Outcome.next.inj (hx.symm.trans h)
  have hbytes : (performed (.wrMdr1 bm e x c b y) s).w.bytes = 4 - bm.toNat := by
    rw [performed_w]
    exact bytes_widthOf (inField_mode hw)
  exact ⟨htr, performed_responses _ s, fun _ _ => wideRead_of_ready hready hbytes, wrDtr_of_ready hready hbytes⟩

end Sys2Proof.Machine
end

section
/-!
The decoder, said once for all sixteen operations (R87): what the word of an operation decodes to, with the operands R86 takes
from ARG, and that every other word is an error whatever ARG holds.
-/
namespace Sys2Proof

/-! The fields of a command byte (R80 to R84) -/

theorem commandByte_class (c : OpClass) (t : Target) : (commandByte c t).extractLsb' 6 2 = c.code :=
  (BitVec.extractLsb'_append_eq_of_le (by decide)).trans BitVec.extractLsb'_append_eq_left

theorem commandByte_selector (c : OpClass) (t : Target) : (commandByte c t).extractLsb' 3 3 = t.code :=
  (BitVec.extractLsb'_append_eq_of_le (by decide)).trans BitVec.extractLsb'_append_eq_right

theorem commandByte_zero (c : OpClass) (t : Target) : (commandByte c t).extractLsb' 0 3 = 0b000#3 :=
  BitVec.extractLsb'_append_eq_right

theorem OpClass.ofCode_eq_iff {code : BitVec 2} {c : OpClass} : OpClass.ofCode code = c ↔ c.code = code := by
  cases c <;> revert code <;> decide

theorem Target.ofCode_eq_some_iff {code : BitVec 3} {t : Target} : Target.ofCode code = some t ↔ t.code = code := by
  cases t <;> revert code <;> decide

theorem Kind.ofCode_eq_iff {code : BitVec 2} {k : Kind} : Kind.ofCode code = k ↔ k.code = code := by
  cases k <;> revert code <;> decide

/-- A byte with ZERO 0b000 and a selector that names a register is the command byte of its class and register. -/
theorem eq_commandByte {cmd : Byte} {t : Target} (hz : cmd.extractLsb' 0 3 = 0b000#3)
    (ht : Target.ofCode (cmd.extractLsb' 3 3) = some t) : cmd = commandByte (OpClass.ofCode (cmd.extractLsb' 6 2)) t := by
  have hc : (OpClass.ofCode (cmd.extractLsb' 6 2)).code = cmd.extractLsb' 6 2 := OpClass.ofCode_eq_iff.mp rfl
  rw [commandByte, hc, Target.ofCode_eq_some_iff.mp ht, ← hz]
  have hsel : cmd.extractLsb' 6 2 ++ cmd.extractLsb' 3 3 = cmd.extractLsb' 3 5 :=
    BitVec.extractLsb'_append_extractLsb'_eq_extractLsb' rfl
  rw [hsel]
  exact (BitVec.extractLsb'_append_extractLsb' (w := 5) (len := 3)).symm

/-- A request word is its KIND and its CMD (R85). -/
theorem exists_kind_append (req : ReqWord) : ∃ (k : Kind) (cmd : Byte), req = k.code ++ cmd := by
  refine ⟨Kind.ofCode (req.extractLsb' 8 2), req.extractLsb' 0 8, ?_⟩
  rw [Kind.ofCode_eq_iff.mp rfl]
  exact (BitVec.extractLsb'_append_extractLsb' (w := 2) (len := 8)).symm

/-! Decode by KIND (R87, R98) -/

theorem kind_cmd_of_append {req : ReqWord} {k : Kind} {cmd : Byte} (h : req = k.code ++ cmd) :
    Kind.ofCode (req.extractLsb' 8 2) = k ∧ req.extractLsb' 0 8 = cmd := by
  subst h
  exact ⟨Kind.ofCode_eq_iff.mpr BitVec.extractLsb'_append_eq_left.symm, BitVec.extractLsb'_append_eq_right⟩

theorem decode_bus {req : ReqWord} {cmd : Byte} (h : req = Kind.bus.code ++ cmd) (arg : ArgBundle) :
    decode ⟨req, arg⟩ = decodeCommand cmd arg := by
  obtain ⟨hk, hc⟩ := kind_cmd_of_append h
  simp only [decode, hk, hc]

theorem decode_init {req : ReqWord} {cmd : Byte} (h : req = Kind.init.code ++ cmd) (arg : ArgBundle) :
    decode ⟨req, arg⟩ = if cmd = 0x00#8 then .ok .init else .error .nonzeroCmd := by
  obtain ⟨hk, hc⟩ := kind_cmd_of_append h
  simp only [decode, hk, hc]

theorem decode_speed {req : ReqWord} {cmd : Byte} (h : req = Kind.speed.code ++ cmd) (arg : ArgBundle) :
    decode ⟨req, arg⟩ = if cmd = 0x00#8 then .ok (.setSpeed (argWord arg)) else .error .nonzeroCmd := by
  obtain ⟨hk, hc⟩ := kind_cmd_of_append h
  simp only [decode, hk, hc]

theorem decode_reserved {req : ReqWord} {cmd : Byte} (h : req = Kind.reserved.code ++ cmd) (arg : ArgBundle) :
    decode ⟨req, arg⟩ = .error .reservedKind := by
  obtain ⟨hk, -⟩ := kind_cmd_of_append h
  simp only [decode, hk]

theorem decodeCommand_commandByte (c : OpClass) (t : Target) (arg : ArgBundle) :
    decodeCommand (commandByte c t) arg = decodePair c t arg := by
  have ht : Target.ofCode t.code = some t := Target.ofCode_eq_some_iff.mpr rfl
  have hc : OpClass.ofCode c.code = c := OpClass.ofCode_eq_iff.mpr rfl
  simp [decodeCommand, commandByte_zero, commandByte_selector, commandByte_class, ht, hc]

theorem decode_busReq (c : OpClass) (t : Target) (arg : ArgBundle) : decode ⟨busReq c t, arg⟩ = decodePair c t arg :=
  (decode_bus rfl arg).trans (decodeCommand_commandByte c t arg)

/-! The words of operations -/

/-- The operation with the word of `i` and the operands R86 takes from ARG. -/
def Instr.withArg (arg : ArgBundle) : Instr → Instr
  | .wrMdr0 _ _ _ _ _ =>
    .wrMdr0 (argByte arg 0) (argByte arg 1) (argByte arg 2) (argByte arg 3) (argByte arg 4)
  | .wrMdr1 _ _ _ _ _ _ =>
    .wrMdr1 (argByte arg 0) (argByte arg 1) (argByte arg 2) (argByte arg 3) (argByte arg 4) (argByte arg 5)
  | .wrDtr _ => .wrDtr (argWord arg)
  | .setSpeed _ => .setSpeed (argWord arg)
  | i => i

theorem Instr.withArg_req (arg : ArgBundle) (i : Instr) : (i.withArg arg).req = i.req := by
  cases i <;> rfl

/-- What the word of an operation decodes to (R87). -/
theorem decode_req (i : Instr) (arg : ArgBundle) : decode ⟨i.req, arg⟩ = .ok (i.withArg arg) := by
  cases i
  case init => exact decode_init rfl arg
  case setSpeed => exact decode_speed rfl arg
  all_goals exact decode_busReq _ _ arg

theorem argWord_append (v : Word) : argWord (0#16 ++ v) = v := BitVec.extractLsb'_append_eq_right

theorem extractLsb'_append_byte {n : Nat} (hi : BitVec n) (b : Byte) (k : Nat) :
    (hi ++ b).extractLsb' (8 * (k + 1)) 8 = hi.extractLsb' (8 * k) 8 :=
  BitVec.extractLsb'_append_eq_of_le (by omega)

/-- The A-bytes of a bundle put together from six bytes. -/
theorem argByte_append (a b c d e f : Byte) (k : Fin 6) :
    argByte (f ++ e ++ d ++ c ++ b ++ a) k = ![a, b, c, d, e, f] k := by
  have low {n : Nat} (hi : BitVec n) (x : Byte) : (hi ++ x).extractLsb' 0 8 = x := BitVec.extractLsb'_append_eq_right
  have up {n : Nat} (hi : BitVec n) (x : Byte) (j : Nat) := extractLsb'_append_byte hi x j
  fin_cases k
  · exact low ..
  · exact (up ..).trans (low ..)
  · exact (up ..).trans <| (up ..).trans (low ..)
  · exact (up ..).trans <| (up ..).trans <| (up ..).trans (low ..)
  · exact (up ..).trans <| (up ..).trans <| (up ..).trans <| (up ..).trans (low ..)
  · exact (up ..).trans <| (up ..).trans <| (up ..).trans <| (up ..).trans <| (up ..).trans BitVec.extractLsb'_eq_self

/-- Encode puts each operand where Decode takes it from (R86). -/
theorem Instr.withArg_arg (i : Instr) : i.withArg i.arg = i := by
  cases i
  case wrMdr0 q c x y f =>
    have h := argByte_append q c x y f 0#8
    rw [Instr.withArg, Instr.wrMdr0.injEq]
    exact ⟨h 0, h 1, h 2, h 3, h 4⟩
  case wrMdr1 m e x c b y =>
    have h := argByte_append m e x c b y
    rw [Instr.withArg, Instr.wrMdr1.injEq]
    exact ⟨h 0, h 1, h 2, h 3, h 4, h 5⟩
  case wrDtr v => exact congrArg Instr.wrDtr (argWord_append v)
  case setSpeed hz => exact congrArg Instr.setSpeed (argWord_append hz)
  all_goals rfl

/-! The words of no operation -/

theorem decodePair_req {c : OpClass} {t : Target} {arg : ArgBundle} {i : Instr} (h : decodePair c t arg = .ok i) :
    i.req = busReq c t := by
  unfold decodePair at h
  split at h <;> cases h <;> rfl

theorem decodePair_error {c : OpClass} {t : Target} {a : ArgBundle} {e : Illegal} (h : decodePair c t a = .error e)
    (b : ArgBundle) : decodePair c t b = .error e := by
  unfold decodePair at h
  split at h <;> cases h <;> rfl

/-- A pair of class and register is an operation's, or an error whatever ARG holds (R97 c). -/
theorem exists_req_or_decodePair_error (c : OpClass) (t : Target) :
    (∃ i : Instr, i.req = busReq c t) ∨ ∃ e, ∀ arg, decodePair c t arg = .error e := by
  cases h : decodePair c t 0 with
  | ok i => exact .inl ⟨i, decodePair_req h⟩
  | error e => exact .inr ⟨e, decodePair_error h⟩

/-- A command byte is an operation's, or an error whatever ARG holds (R97). -/
theorem exists_req_or_decodeCommand_error (cmd : Byte) :
    (∃ i : Instr, i.req = Kind.bus.code ++ cmd) ∨ ∃ e, ∀ arg, decodeCommand cmd arg = .error e := by
  by_cases hz : cmd.extractLsb' 0 3 = 0b000#3
  · cases ht : Target.ofCode (cmd.extractLsb' 3 3) with
    | none => exact .inr ⟨.noRegister, fun arg => by simp [decodeCommand, hz, ht]⟩
    | some t =>
      rw [eq_commandByte hz ht]
      simp only [decodeCommand_commandByte]
      exact exists_req_or_decodePair_error _ t
  · exact .inr ⟨.nonzeroZeroField, fun arg => if_pos hz⟩

/-- A request word is an operation's, or an error whatever ARG holds (R98). -/
theorem exists_req_or_decode_error (req : ReqWord) :
    (∃ i : Instr, i.req = req) ∨ ∃ e, ∀ arg, decode ⟨req, arg⟩ = .error e := by
  obtain ⟨k, cmd, h⟩ := exists_kind_append req
  cases k
  case bus =>
    simp only [decode_bus h]
    exact h ▸ exists_req_or_decodeCommand_error cmd
  case init =>
    simp only [decode_init h]
    by_cases hc : cmd = 0x00#8
    · exact .inl ⟨.init, by rw [h, hc]; rfl⟩
    · exact .inr ⟨.nonzeroCmd, fun _ => if_neg hc⟩
  case speed =>
    simp only [decode_speed h]
    by_cases hc : cmd = 0x00#8
    · exact .inl ⟨.setSpeed 0, by rw [h, hc]; rfl⟩
    · exact .inr ⟨.nonzeroCmd, fun _ => if_neg hc⟩
  case reserved => exact .inr ⟨.reservedKind, decode_reserved h⟩

/-- The words that decode are those of operations, whatever ARG holds (R98). -/
theorem exists_decode_ok_iff (req : ReqWord) (arg : ArgBundle) :
    (∃ j, decode ⟨req, arg⟩ = .ok j) ↔ ∃ i : Instr, i.req = req := by
  constructor
  · rintro ⟨j, hj⟩
    obtain hi | ⟨e, he⟩ := exists_req_or_decode_error req
    · exact hi
    · cases hj.symm.trans (he arg)
  · rintro ⟨i, rfl⟩
    exact ⟨_, decode_req i arg⟩

/-- The words of the sixteen operations (Table 30-4). -/
def operationWords : List ReqWord :=
  [0x100, 0x008, 0x010, 0x020, 0x030, 0x048, 0x050, 0x070, 0x060, 0x068, 0x088, 0x090, 0x098, 0x0E0, 0x0E8, 0x200]

theorem exists_req_iff_mem_operationWords {req : ReqWord} : (∃ i : Instr, i.req = req) ↔ req ∈ operationWords := by
  constructor
  · rintro ⟨i, rfl⟩
    cases i <;> exact List.mem_of_elem_eq_true rfl
  · have hwords : operationWords = [.init, .clrMdr0, .clrMdr1, .clrCntr, .clrStr, .rdMdr0, .rdMdr1, .rdStr, .rdCntr, .rdOtr,
        .wrMdr0 0 0 0 0 0, .wrMdr1 0 0 0 0 0 0, .wrDtr 0, .ldCntr, .ldOtr, .setSpeed 0].map Instr.req := rfl
    intro h
    rw [hwords] at h
    obtain ⟨i, -, hi⟩ := List.mem_map.mp h
    exact ⟨i, hi⟩

theorem decode_error_of_not_mem {req : ReqWord} (h : req ∉ operationWords) (arg : ArgBundle) :
    ∃ c, decode ⟨req, arg⟩ = .error c := by
  obtain hi | ⟨e, he⟩ := exists_req_or_decode_error req
  · exact absurd (exists_req_iff_mem_operationWords.mp hi) h
  · exact ⟨e, he arg⟩

/-- KIND and CMD of the sixteen words (R85): BUS with one of the 14 command bytes, or INIT or SPEED with CMD 0x00. -/
theorem kind_cmd_of_mem_operationWords : ∀ req ∈ operationWords,
    (req.extractLsb' 8 2 = 0b00#2 ∧
      req.extractLsb' 0 8 ∈ [0x08#8, 0x10, 0x20, 0x30, 0x48, 0x50, 0x60, 0x68, 0x70, 0x88, 0x90, 0x98, 0xE0, 0xE8]) ∨
    (req.extractLsb' 8 2 = 0b01#2 ∨ req.extractLsb' 8 2 = 0b10#2) ∧ req.extractLsb' 0 8 = 0x00#8 :=
  List.forall_iff_forall_mem.mp (by decide)

end Sys2Proof
end

section
/-!
The statements about request words and command bytes, from what each word decodes to (`decode_req`,
`exists_req_or_decode_error`).
-/
namespace Sys2Proof

/-- Settles O6: what the word decodes to, with the operands where Encode puts them. -/
theorem decodeOfEncodeIsTheInstruction : Obligations.DecodeOfEncodeIsTheInstruction :=
  fun i => (decode_req i i.arg).trans (congrArg Except.ok i.withArg_arg)

/-- Settles O4: `decode_req` for an operation of each word; the operands it is given do not matter. -/
theorem tableWordsDecodeWithTheirOperands : Obligations.TableWordsDecodeWithTheirOperands := fun arg =>
  ⟨decode_req .init arg, decode_req .clrMdr0 arg, decode_req .clrMdr1 arg, decode_req .clrCntr arg, decode_req .clrStr arg,
    decode_req .rdMdr0 arg, decode_req .rdMdr1 arg, decode_req .rdStr arg, decode_req .rdCntr arg, decode_req .rdOtr arg,
    decode_req (.wrMdr0 0 0 0 0 0) arg, decode_req (.wrMdr1 0 0 0 0 0 0) arg, decode_req (.wrDtr 0) arg,
    decode_req .ldCntr arg, decode_req .ldOtr arg, decode_req (.setSpeed 0) arg⟩

/-- Settles O5: the words that decode are those of operations, and by their KIND and CMD none of them is of an illegal kind. -/
theorem onlyTheSixteenWordsDecode : Obligations.OnlyTheSixteenWordsDecode := by
  intro req arg
  have hword := kind_cmd_of_mem_operationWords req
  refine ⟨(exists_decode_ok_iff req arg).trans exists_req_iff_mem_operationWords, fun hk => ?_, fun hk hc => ?_,
    fun hk hc => ?_⟩
  · refine decode_error_of_not_mem (fun hm => ?_) arg
    obtain ⟨h0, -⟩ | ⟨h12, -⟩ := hword hm
    · simp [hk] at h0
    · simp [hk] at h12
  · refine decode_error_of_not_mem (fun hm => ?_) arg
    obtain ⟨h0, -⟩ | ⟨-, hcmd⟩ := hword hm
    · simp [h0] at hk
    · exact hc hcmd
  · refine decode_error_of_not_mem (fun hm => ?_) arg
    obtain ⟨-, hcmd⟩ | ⟨h12, -⟩ := hword hm
    · exact hc hcmd
    · simp [hk] at h12

/-- Settles O7: a word that decodes is an operation's, and what it decodes to has the same word. -/
theorem decodedInstructionSpellsItsWord : Obligations.DecodedInstructionSpellsItsWord := by
  rintro ⟨req, arg⟩ i h
  obtain ⟨j, rfl⟩ := (exists_decode_ok_iff req arg).mp ⟨i, h⟩
  obtain rfl : j.withArg arg = i := Except.ok.inj ((decode_req j arg).symm.trans h)
  exact j.withArg_req arg

theorem argByte_congr {a b : ArgBundle} (h : a.extractLsb' 0 40 = b.extractLsb' 0 40) {k : Nat} (hk : k < 5) :
    argByte a k = argByte b k := by
  have hlow (x : ArgBundle) : (x.extractLsb' 0 40).extractLsb' (8 * k) 8 = argByte x k :=
    BitVec.extractLsb'_extractLsb'_of_le (by omega)
  rw [← hlow a, ← hlow b, h]

/-- An operation takes its operands from the fields R86 gives its word. -/
theorem Instr.withArg_congr {i : Instr} {a b : ArgBundle} (hall : i.req = 0x090#10 → a = b)
    (hlow : i.req = 0x088#10 → a.extractLsb' 0 40 = b.extractLsb' 0 40)
    (hword : i.req = 0x098#10 ∨ i.req = 0x200#10 → a.extractLsb' 0 32 = b.extractLsb' 0 32) :
    i.withArg a = i.withArg b := by
  cases i
  case wrMdr0 =>
    have h {k : Nat} (hk : k < 5) : argByte a k = argByte b k := argByte_congr (hlow rfl) hk
    simp only [Instr.withArg, h, Nat.reduceLT]
  case wrMdr1 => rw [hall rfl]
  case wrDtr => exact congrArg Instr.wrDtr (hword (.inl rfl))
  case setSpeed => exact congrArg Instr.setSpeed (hword (.inr rfl))
  all_goals rfl

/-- Settles O8: an operation's word reads its fields only, and any other word is an error without looking at ARG. -/
theorem unreadOperandBitsHaveNoEffect : Obligations.UnreadOperandBitsHaveNoEffect := by
  intro req a b hall hlow hword
  obtain ⟨i, rfl⟩ | ⟨e, he⟩ := exists_req_or_decode_error req
  · rw [decode_req, decode_req, Instr.withArg_congr hall hlow hword]
  · rw [he, he]

/-- Settles O2: the fields of `commandByte`, and the codes by their definitions. -/
theorem commandByteHoldsClassSelectorAndZero : Obligations.CommandByteHoldsClassSelectorAndZero := by
  refine ⟨fun c t => ⟨commandByte_class c t, commandByte_selector c t, commandByte_zero c t, ?_⟩, by decide, by decide,
    fun t => ⟨?_, ?_, Target.ofCode_eq_some_iff.mpr rfl⟩, by decide, by decide⟩
  · cases c <;> cases t <;> decide
  · cases t <;> decide
  · cases t <;> decide

/-- Settles O3: words of operations, and one word for each cause of an error. -/
theorem sampleWordsDecodeAsTheTableSays : Obligations.SampleWordsDecodeAsTheTableSays :=
  ⟨decode_req .init _, decode_req .clrStr _, decode_req .rdOtr _, decode_req (.wrMdr1 0 0 0 0 0 0) _, decode_req .ldCntr _,
    decode_req (.setSpeed 0) _, decode_busReq .clear .dtr _, decode_bus (cmd := 0x38) rfl _, decode_bus (cmd := 0x0F) rfl _,
    decode_speed (cmd := 0xFF) rfl _, decode_reserved (cmd := 0xE0) rfl _⟩

end Sys2Proof
end

section
/-!
The payload of a mode-register write (R88, R90, R93): the OR of operands that lie in disjoint fields.
-/
namespace Sys2Proof.Machine

/-! Operands in disjoint fields -/

/-- The OR of the operands in a list of operands and their masks. -/
def unionOf (fields : List (Byte × Byte)) : Byte := (fields.map Prod.fst).foldr (· ||| ·) 0

@[simp] theorem unionOf_nil : unionOf [] = 0#8 := rfl

@[simp] theorem unionOf_cons (p : Byte × Byte) (rest : List (Byte × Byte)) :
    unionOf (p :: rest) = p.1 ||| unionOf rest := rfl

theorem and_mask_of_inField {v mask : Byte} (h : inField v mask = true) : v &&& mask = v := by
  have hv : v &&& ~~~mask = 0#8 := eq_of_beq h
  calc v &&& mask = (v &&& mask) ||| (v &&& ~~~mask) := by rw [hv, BitVec.or_zero]
    _ = v := by rw [← BitVec.and_or_distrib_left, BitVec.or_not_self, BitVec.and_allOnes]

theorem and_eq_zero_of_inField {v mask mask' : Byte} (h : inField v mask = true) (hd : mask &&& mask' = 0#8) :
    v &&& mask' = 0#8 := by
  rw [← and_mask_of_inField h, BitVec.and_assoc, hd, BitVec.and_zero]

/-- Operands in their fields leave a field that is none of theirs 0. -/
theorem unionOf_and_eq_zero {fields : List (Byte × Byte)} {mask : Byte} (hin : ∀ p ∈ fields, inField p.1 p.2 = true)
    (hd : ∀ p ∈ fields, p.2 &&& mask = 0#8) : unionOf fields &&& mask = 0#8 := by
  induction fields with
  | nil => exact BitVec.zero_and
  | cons p rest ih =>
    obtain ⟨hp, hrest⟩ := List.forall_mem_cons.mp hin
    obtain ⟨hdp, hdrest⟩ := List.forall_mem_cons.mp hd
    rw [unionOf_cons, BitVec.and_or_distrib_right, and_eq_zero_of_inField hp hdp, ih hrest hdrest, BitVec.or_zero]

/-- No two fields of a list share a bit. -/
def DisjointFields (fields : List (Byte × Byte)) : Prop := fields.Pairwise fun p p' => p.2 &&& p'.2 = 0#8

theorem unionOf_and_mask_head {p : Byte × Byte} {rest : List (Byte × Byte)} (hin : ∀ q ∈ rest, inField q.1 q.2 = true)
    (hd : DisjointFields (p :: rest)) : unionOf rest &&& p.2 = 0#8 :=
  unionOf_and_eq_zero hin fun q hq => BitVec.and_comm .. ▸ (List.pairwise_cons.mp hd).1 q hq

/-- Each field of the union is its operand. -/
theorem unionOf_and_mask {fields : List (Byte × Byte)} (hin : ∀ p ∈ fields, inField p.1 p.2 = true)
    (hd : DisjointFields fields) : ∀ p ∈ fields, unionOf fields &&& p.2 = p.1 := by
  induction fields with
  | nil => exact fun _ h => absurd h List.not_mem_nil
  | cons p rest ih =>
    obtain ⟨hp, hrest⟩ := List.forall_mem_cons.mp hin
    obtain ⟨hdp, hdrest⟩ := List.pairwise_cons.mp hd
    refine List.forall_mem_cons.mpr ⟨?_, fun q hq => ?_⟩
    · rw [unionOf_cons, BitVec.and_or_distrib_right, and_mask_of_inField hp, unionOf_and_mask_head hrest hd, BitVec.or_zero]
    · rw [unionOf_cons, BitVec.and_or_distrib_right, and_eq_zero_of_inField hp (hdp q hq), BitVec.zero_or]
      exact ih hrest hdrest q hq

/-- Operands in disjoint fields add without a carry, so their OR is their sum (R93). -/
theorem toNat_unionOf {fields : List (Byte × Byte)} (hin : ∀ p ∈ fields, inField p.1 p.2 = true)
    (hd : DisjointFields fields) : (unionOf fields).toNat = (fields.map fun p => p.1.toNat).sum := by
  induction fields with
  | nil => rfl
  | cons p rest ih =>
    obtain ⟨hp, hrest⟩ := List.forall_mem_cons.mp hin
    have hcarry : p.1 &&& unionOf rest = 0#8 := by
      rw [← and_mask_of_inField hp, BitVec.and_assoc, BitVec.and_comm p.2, unionOf_and_mask_head hrest hd, BitVec.and_zero]
    rw [unionOf_cons, ← BitVec.add_eq_or_of_and_eq_zero _ _ hcarry, BitVec.toNat_add_of_and_eq_zero hcarry,
      ih hrest hd.of_cons, List.map_cons, List.sum_cons]

/-! The operands of an operation -/

theorem disjointFields_maskedOperands (i : Instr) : DisjointFields i.maskedOperands := by
  have hmasks : (i.maskedOperands.map Prod.snd).Pairwise fun m m' => m &&& m' = 0#8 := by
    cases i
    case wrMdr0 => exact (by decide : [0x03#8, 0x0C, 0x30, 0x40, 0x80].Pairwise fun m m' => m &&& m' = 0#8)
    case wrMdr1 => exact (by decide : [0x03#8, 0x04, 0x10, 0x20, 0x40, 0x80].Pairwise fun m m' => m &&& m' = 0#8)
    all_goals exact .nil
  exact List.pairwise_map.mp hmasks

/-- The payload of an operation without a failing operand: each operand in its field, and their sum (R88, R90, R93). -/
theorem unionOf_maskedOperands {i : Instr} (h : failingOperand i = none) :
    (∀ p ∈ i.maskedOperands, unionOf i.maskedOperands &&& p.2 = p.1) ∧
      (unionOf i.maskedOperands).toNat = (i.maskedOperands.map fun p => p.1.toNat).sum :=
  have hin := firstOutside_eq_none_iff.mp h
  ⟨unionOf_and_mask hin (disjointFields_maskedOperands i), toNat_unionOf hin (disjointFields_maskedOperands i)⟩

theorem unionOf_wrMdr0 (q c x y f : Byte) :
    unionOf (Instr.wrMdr0 q c x y f).maskedOperands = q ||| c ||| x ||| y ||| f := by
  simp [Instr.maskedOperands, BitVec.or_assoc]

theorem unionOf_wrMdr1 (m e x c b y : Byte) :
    unionOf (Instr.wrMdr1 m e x c b y).maskedOperands = m ||| e ||| x ||| c ||| b ||| y := by
  simp [Instr.maskedOperands, BitVec.or_assoc]

/-- AssembleMDR0 succeeds exactly without a failing operand, and gives the OR of the operands. -/
theorem assembleMdr0_eq_ok_iff {q c x y f p : Byte} : assembleMdr0 q c x y f = .ok p ↔
    failingOperand (.wrMdr0 q c x y f) = none ∧ unionOf (Instr.wrMdr0 q c x y f).maskedOperands = p := by
  rw [assembleMdr0_eq, unionOf_wrMdr0]
  cases failingOperand (.wrMdr0 q c x y f) <;> simp

/-- AssembleMDR1 succeeds exactly without a failing operand, and gives the OR of the operands. -/
theorem assembleMdr1_eq_ok_iff {m e x c b y p : Byte} : assembleMdr1 m e x c b y = .ok p ↔
    failingOperand (.wrMdr1 m e x c b y) = none ∧ unionOf (Instr.wrMdr1 m e x c b y).maskedOperands = p := by
  rw [assembleMdr1_eq, unionOf_wrMdr1]
  cases failingOperand (.wrMdr1 m e x c b y) <;> simp

/-- Settles O13: the operands of a well-formed write lie in disjoint fields, so `toNat_unionOf` sums them. -/
theorem assembledPayloadIsTheSumOfItsFields : Obligations.AssembledPayloadIsTheSumOfItsFields := by
  constructor
  · intro q c x y f hw
    have hnone := (wellFormed_iff _).mp hw
    refine ⟨_, assembleMdr0_eq_ok_iff.mpr ⟨hnone, rfl⟩, unionOf_wrMdr0 .., ?_⟩
    rw [(unionOf_maskedOperands hnone).2]
    simp [Instr.maskedOperands, Nat.add_assoc]
  · intro m e x c b y hw
    have hnone := (wellFormed_iff _).mp hw
    refine ⟨_, assembleMdr1_eq_ok_iff.mpr ⟨hnone, rfl⟩, unionOf_wrMdr1 .., ?_⟩
    rw [(unionOf_maskedOperands hnone).2]
    simp [Instr.maskedOperands, Nat.add_assoc]

/-- Settles O14: an assembly that succeeds has every operand in its field, and the fields share no bit with one another or with
bit 3 of MDR1. -/
theorem payloadFieldsAreTheOperands : Obligations.PayloadFieldsAreTheOperands := by
  constructor
  · intro q c x y f p h
    obtain ⟨hnone, rfl⟩ := assembleMdr0_eq_ok_iff.mp h
    have hfield := (unionOf_maskedOperands hnone).1
    simpa only [Instr.maskedOperands, List.forall_mem_cons, List.not_mem_nil, false_implies, implies_true, and_true]
      using hfield
  · intro m e x c b y p h
    obtain ⟨hnone, rfl⟩ := assembleMdr1_eq_ok_iff.mp h
    have hbit3 : unionOf (Instr.wrMdr1 m e x c b y).maskedOperands &&& 0x08 = 0 :=
      unionOf_and_eq_zero (firstOutside_eq_none_iff.mp hnone) (by simp [Instr.maskedOperands])
    have hfield := (unionOf_maskedOperands hnone).1
    simp only [Instr.maskedOperands, List.forall_mem_cons, List.not_mem_nil, false_implies, implies_true, and_true] at hfield
    obtain ⟨hm, he, hx, hc, hb, hy⟩ := hfield
    exact ⟨hm, he, hbit3, hx, hc, hb, hy⟩

end Sys2Proof.Machine
end

section
/-!
Register forms of the assembler (R100, R103) and the annotation of a read line (R101).
-/
namespace Sys2Proof.Machine

/-! The bytes an annotation fixes -/

theorem reply_of_replies {s : State} {n : Nat} {b : Byte} (h : s.replies[n]? = some (some b)) : s.reply n = b := by
  simp [State.reply, h]

/-- The annotation stands in the script of replies behind the command byte's draw. -/
theorem replies_issueLine (i : Instr) {bs : List Byte} (s : State) {k : Nat} (hk : k < bs.length) :
    (issueLine ⟨i, some bs⟩ s).replies[s.exchanged + 1 + k]? = some (some bs[k]) := by
  have hscript : ((List.range s.exchanged).map fun n => s.replies[n]?.join).length = s.exchanged := by simp
  rw [issueLine, List.getElem?_append_right (by omega), hscript, Nat.add_assoc, Nat.add_sub_cancel_left, Nat.add_comm 1 k]
  simp [hk]

/-- The payload exchanges of the next frame receive the bytes of the annotation (R101). -/
theorem repliesFrom_issueLine (i : Instr) (bs : List Byte) (s : State) :
    (issueLine ⟨i, some bs⟩ s).repliesFrom (s.exchanged + 1) bs.length = bs := by
  refine List.ext_getElem (repliesFrom_length ..) fun k _ hk => ?_
  simp only [State.repliesFrom, List.getElem_map, List.getElem_range, reply_of_replies (replies_issueLine i s hk)]

/-- An annotated line with as many bytes as its operation's payload returns what these bytes amount to. -/
theorem step_issueLine {i : Instr} {s : State} {bs : List Byte} (hs : s.ready) (hp : s.pending = [])
    (hw : failingOperand i = none) (hl : (sentBytes s.w i).length = bs.length) :
    ∃ t, step (issueLine ⟨i, some bs⟩ s) = .next t ∧ t.responses = s.responses ++ [responseOf bs i] := by
  have hqueue : (issueLine ⟨i, some bs⟩ s).pending = encode i :: [] := congrArg (· ++ [encode i]) hp
  refine ⟨_, step_of_performed hqueue (decodeOfEncodeIsTheInstruction i) hs.1 (fun _ => hs.2) hw, ?_⟩
  have hreceived := repliesFrom_issueLine i bs s
  rw [← hl] at hreceived
  exact (performed_responses i _).trans (congrArg (fun received => s.responses ++ [responseOf received i]) hreceived)

/-- Settles O45: a byte read sends one payload byte and a wide read as many as W stands for. -/
theorem annotationFixesTheReadResult : Obligations.AnnotationFixesTheReadResult := by
  constructor
  · intro i s b hi hs hp
    simp only [List.mem_cons, List.not_mem_nil, or_false] at hi
    obtain rfl | rfl | rfl := hi <;> exact step_issueLine hs hp rfl rfl
  · intro i s bs hi hs hp hl
    simp only [List.mem_cons, List.not_mem_nil, or_false] at hi
    obtain rfl | rfl := hi <;> exact step_issueLine hs hp rfl (List.length_replicate.trans hl.symm)

/-! Register forms -/

/-- The register forms, each with the class of its operations and the registers it admits (Table 30-8). -/
def registerForms : List (String × OpClass × List Target) :=
  [("clear", .clear, [.mdr0, .mdr1, .cntr, .str]), ("read_byte", .read, [.mdr0, .mdr1, .str]),
    ("read_wide", .read, [.cntr, .otr]), ("load", .load, [.cntr, .otr])]

/-- A register form admits exactly the registers in its list, and spells the operation of the pair (R42). -/
theorem registerForm_spells {name : String} {c : OpClass} {admitted : List Target}
    (hf : (name, c, admitted) ∈ registerForms) (t : Target) :
    (t ∈ admitted → ∃ i, registerForm name t = .ok i ∧ decodePair c t 0 = .ok i) ∧
      (t ∉ admitted → registerForm name t = .error .registerNotAdmitted) := by
  simp only [registerForms, List.mem_cons, Prod.mk.injEq, List.not_mem_nil, or_false] at hf
  obtain ⟨rfl, rfl, rfl⟩ | ⟨rfl, rfl, rfl⟩ | ⟨rfl, rfl, rfl⟩ | ⟨rfl, rfl, rfl⟩ := hf <;>
    cases t <;> simp [registerForm, decodePair]

/-- A register form with a register's name is read as that form on that register. -/
theorem assembleForm_register {name register : String} {c : OpClass} {admitted : List Target} {t : Target}
    (hf : (name, c, admitted) ∈ registerForms) (hr : asmRegisters.lookup register = some t) :
    assembleForm name [register.toList] = registerForm name t := by
  have hname : name ≠ "write_dtr" ∧ name ≠ "set_speed" := by
    simp only [registerForms, List.mem_cons, Prod.mk.injEq, List.not_mem_nil, or_false] at hf
    obtain ⟨rfl, -⟩ | ⟨rfl, -⟩ | ⟨rfl, -⟩ | ⟨rfl, -⟩ := hf <;> decide
  simp [assembleForm, hname, hr]

theorem lookup_asmRegisters : ∀ p ∈ asmRegisters, asmRegisters.lookup p.1 = some p.2 := by decide

/-- Settles O44: the form is read on the register its text names, and then spells the pair or is turned away. -/
theorem registerFormsSpellTheirPair : Obligations.RegisterFormsSpellTheirPair := by
  intro name c admitted hf register t hr
  rw [assembleForm_register hf (lookup_asmRegisters (register, t) hr), decode_busReq]
  exact registerForm_spells hf t

end Sys2Proof.Machine
end

section
/-!
The generic checks of every operation (R172), and INIT with its whole effect (R110, R111).
-/
namespace Sys2Proof.Machine

/-- Every operation meets the generic checks with its own request word. -/
theorem genericChecks (i : Instr) : GenericChecks i i.req := by
  refine ⟨fun s t hf h => ?_, fun s hf ho => exec_of_frameOpen hf ho i⟩
  obtain ⟨hnone, -⟩ := exec_next h
  exact hf hnone

/-- INIT is performed on every block that accepts requests, whatever its INIT_DONE (R111). -/
theorem exec_init_of_accepts {s : State} (hs : s.accepts) : exec .init s = .next (performed .init s) :=
  exec_of_performed hs nofun rfl

/-- Settles O24: an accepted INIT is performed, and `performed_init` closes a frame that an accepting block does not have
open. -/
theorem initConfiguresTheTransport : Obligations.InitConfiguresTheTransport := by
  refine ⟨decode_req .init, genericChecks .init, fun s hs => ?_⟩
  have hclosed : s.frameOpen = false := hs.2
  rw [exec_init_of_accepts hs, performed_init, ← hclosed]

end Sys2Proof.Machine
end

section
/-!
The CLEAR operations (R120 to R124): an operation whose effect is the frame of its command byte alone.
-/
namespace Sys2Proof.Machine

/-- A bus operation meets the INIT_DONE check with its own request word (R173). -/
theorem needsInit {i : Instr} (hb : i.isBus = true) : NeedsInit i i.req :=
  fun _ hs hi => exec_of_not_initDone hs hb hi

/-- On a ready block an operation of the command byte alone exchanges that byte and returns `unit` (R120, R160); the frame it
closes leaves `frameOpen` as a ready block has it. -/
theorem exec_of_performed_commandOnly {i : Instr} {s : State} {cmd : Byte} (hs : s.ready) (hw : WellFormed i = true)
    (hp : performed i s = commandOnly cmd s) :
    exec i s = .next { s with
      csN := .high
      trace := s.trace ++ [.sel s.csLine, .xchg cmd (s.reply s.exchanged), .des s.csLine]
      responses := s.responses ++ [.unit]
      exchanged := s.exchanged + 1 } := by
  have hclosed : s.frameOpen = false := hs.1.2
  rw [exec_of_ready hs hw, hp, commandOnly_eq, ← hclosed]

/-- Settles O25: each CLEAR is a bus operation without operands, performed as the frame of its command byte alone. -/
theorem clearSendsItsCommandByteAlone : Obligations.ClearSendsItsCommandByteAlone := by
  intro i req cmd h
  have hclear : i.req = req ∧ i.isBus = true ∧ WellFormed i = true ∧ (∀ arg, i.withArg arg = i) ∧
      ∀ s, performed i s = commandOnly cmd s := by
    simp only [List.mem_cons, Prod.mk.injEq, List.not_mem_nil, or_false] at h
    obtain ⟨rfl, rfl, rfl⟩ | ⟨rfl, rfl, rfl⟩ | ⟨rfl, rfl, rfl⟩ | ⟨rfl, rfl, rfl⟩ := h <;>
      exact ⟨rfl, rfl, rfl, fun _ => rfl, fun _ => rfl⟩
  obtain ⟨rfl, hb, hw, harg, hp⟩ := hclear
  exact ⟨fun arg => (decode_req i arg).trans (congrArg Except.ok (harg arg)), genericChecks i, needsInit hb,
    fun s hs => exec_of_performed_commandOnly hs hw (hp s)⟩

end Sys2Proof.Machine
end

section
/-!
The read operations (R130 to R136): a frame of dummy bytes, whose received bytes are the response.
-/
namespace Sys2Proof.Machine

/-- A bus operation that reads nothing of ARG is spelled by its request word alone, and meets the checks of a bus operation
with that word. -/
theorem word_and_checks {i : Instr} (hb : i.isBus = true) (harg : ∀ arg, i.withArg arg = i) :
    (∀ arg, decode ⟨i.req, arg⟩ = .ok i) ∧ GenericChecks i i.req ∧ NeedsInit i i.req :=
  ⟨fun arg => (decode_req i arg).trans (congrArg Except.ok (harg arg)), genericChecks i, needsInit hb⟩

/-- Settles O26: each single-byte read is a bus operation without operands, and on a ready block it is performed;
`readByte_eq` closes a frame that a ready block does not have open. -/
theorem byteReadReturnsTheDummyExchange : Obligations.ByteReadReturnsTheDummyExchange := by
  intro i req cmd h
  have hread : i.req = req ∧ i.isBus = true ∧ WellFormed i = true ∧ (∀ arg, i.withArg arg = i) ∧
      ∀ s, performed i s = readByte cmd s := by
    simp only [List.mem_cons, Prod.mk.injEq, List.not_mem_nil, or_false] at h
    obtain ⟨rfl, rfl, rfl⟩ | ⟨rfl, rfl, rfl⟩ | ⟨rfl, rfl, rfl⟩ := h <;>
      exact ⟨rfl, rfl, rfl, fun _ => rfl, fun _ => rfl⟩
  obtain ⟨rfl, hb, hw, harg, hp⟩ := hread
  obtain ⟨hdecode, hgeneric, hinit⟩ := word_and_checks hb harg
  refine ⟨hdecode, hgeneric, hinit, fun s hs => ?_⟩
  have hclosed : s.frameOpen = false := hs.1.2
  rw [exec_of_ready hs hw, hp, readByte_eq, ← hclosed]

/-- Settles O27: each wide read is a bus operation without operands, and on a ready block it is performed; `readWide_eq`
closes a frame that a ready block does not have open. -/
theorem wideReadReturnsTheReceivedBytes : Obligations.WideReadReturnsTheReceivedBytes := by
  intro i req cmd h
  have hread : i.req = req ∧ i.isBus = true ∧ WellFormed i = true ∧ (∀ arg, i.withArg arg = i) ∧
      ∀ s, performed i s = readWide cmd s := by
    simp only [List.mem_cons, Prod.mk.injEq, List.not_mem_nil, or_false] at h
    obtain ⟨rfl, rfl, rfl⟩ | ⟨rfl, rfl, rfl⟩ := h <;> exact ⟨rfl, rfl, rfl, fun _ => rfl, fun _ => rfl⟩
  obtain ⟨rfl, hb, hw, harg, hp⟩ := hread
  obtain ⟨hdecode, hgeneric, hinit⟩ := word_and_checks hb harg
  refine ⟨hdecode, hgeneric, hinit, fun s hs => ?_⟩
  have hclosed : s.frameOpen = false := hs.1.2
  rw [exec_of_ready hs hw, hp, readWide_eq, ← hclosed]

end Sys2Proof.Machine
end

section
/-!
The write operations (R145 to R148), and the round trip of a value through DTR (R55).
-/
namespace Sys2Proof.Machine

/-- The whole next state of a well-formed bus operation on a ready block: the frame it closes leaves `frameOpen` as a ready
block has it. -/
theorem exec_bus_eq_of_ready {i : Instr} {s : State} (hb : i.isBus = true) (hw : WellFormed i = true) (hs : s.ready) :
    exec i s = .next { s with
      w := widthAfter s.w i
      csN := .high
      trace := s.trace ++ frameEvents s (commandOf i) (sentBytes s.w i)
      responses := s.responses ++ [responseOf (s.repliesFrom (s.exchanged + 1) (sentBytes s.w i).length) i]
      exchanged := s.exchanged + 1 + (sentBytes s.w i).length } := by
  have hclosed : s.frameOpen = false := hs.1.2
  rw [exec_of_ready hs hw, performed_of_isBus hb, ← hclosed]

/-- An operation with an operand outside its field takes FIELD_RANGE on a ready block and changes nothing else (R174, R177). -/
theorem exec_of_not_wellFormed {i : Instr} {s : State} (hs : s.ready) (hw : WellFormed i = false) :
    ∃ d, exec i s = .next { s with fault := some ⟨.fieldRange, i.req, some d⟩ } := by
  obtain ⟨d, hd⟩ := failingOperand_of_not_wellFormed hw
  exact ⟨d, exec_of_failingOperand hs.1 (fun _ => hs.2) hd⟩

/-- Settles O28: the frame of WR_MDR0 sends its one assembled byte, or its failing operand is recorded. -/
theorem writeMdr0SendsTheAssembledByte : Obligations.WriteMdr0SendsTheAssembledByte := by
  refine ⟨decode_req (.wrMdr0 0 0 0 0 0), fun q c x y f => ⟨genericChecks _, needsInit rfl, fun s hs => ⟨fun hw => ?_, ?_⟩⟩⟩
  · exact exec_bus_eq_of_ready rfl hw hs
  · exact exec_of_not_wellFormed hs

/-- WidthOf at the four values a byte-mode operand can have in its field (R91). -/
theorem widthOf_byteMode {bm : Byte} {n : Width}
    (h : (bm, n) ∈ [(0x00#8, Width.four), (0x01, .three), (0x02, .two), (0x03, .one)]) :
    widthOf (bm.extractLsb' 0 2) = n := by
  simp only [List.mem_cons, Prod.mk.injEq, List.not_mem_nil, or_false] at h
  obtain ⟨rfl, rfl⟩ | ⟨rfl, rfl⟩ | ⟨rfl, rfl⟩ | ⟨rfl, rfl⟩ := h <;> rfl

/-- Settles O29: as WR_MDR0, and the width left is WidthOf of the byte mode. -/
theorem writeMdr1SetsTheTransferWidth : Obligations.WriteMdr1SetsTheTransferWidth := by
  refine ⟨decode_req (.wrMdr1 0 0 0 0 0 0), fun bm e x c b y =>
    ⟨genericChecks _, needsInit rfl, fun s hs => ⟨fun n hn hw => ?_, ?_⟩⟩⟩
  · obtain rfl := widthOf_byteMode hn
    exact exec_bus_eq_of_ready rfl hw hs
  · exact exec_of_not_wellFormed hs

/-- Settles O30: WR_DTR has no operand to fault on, and its frame sends as many bytes as W stands for. -/
theorem writeDtrSendsTheLowBytes : Obligations.WriteDtrSendsTheLowBytes := by
  refine ⟨decode_req (.wrDtr 0), fun v => ⟨genericChecks _, needsInit rfl, fun s hs => ?_⟩⟩
  rw [← serialize_length v s.w]
  exact exec_bus_eq_of_ready rfl rfl hs

/-- Settles O42: WR_DTR leaves the block ready, so RD_CNTR returns what the echoed bytes deserialize to, which
`deserialize_serialize` says. -/
theorem echoedDtrBytesReadBackTheLowBytes : Obligations.EchoedDtrBytesReadBackTheLowBytes := by
  intro s t v hs h hecho
  obtain ⟨hx, hready, -, -⟩ := exec_bus_of_ready (i := .wrDtr v) rfl rfl hs
  obtain rfl : performed _ s = t := Host.Outcome.next.inj (hx.symm.trans h)
  obtain ⟨u, hu, -, hresponses⟩ := wideRead_of_ready hready rfl (.head _)
  rw [hecho, deserialize_serialize] at hresponses
  exact ⟨u, hu, hresponses⟩

end Sys2Proof.Machine
end

section
/-!
The LOAD operations (R160 to R162): as the CLEARs, the frame of the command byte alone, whatever was written before.
-/
namespace Sys2Proof.Machine

/-- Each LOAD goes on the bus under its own word, has no operand to read or to fault on, and is performed as the frame of its
command byte (R161, R162). -/
theorem load_performed {i : Instr} {req : ReqWord} {cmd : Byte}
    (h : (i, req, cmd) ∈ [(Instr.ldCntr, 0x0E0#10, 0xE0#8), (.ldOtr, 0x0E8, 0xE8)]) :
    i.req = req ∧ i.isBus = true ∧ WellFormed i = true ∧ (∀ arg, i.withArg arg = i) ∧
      ∀ s, performed i s = commandOnly cmd s := by
  simp only [List.mem_cons, Prod.mk.injEq, List.not_mem_nil, or_false] at h
  obtain ⟨rfl, rfl, rfl⟩ | ⟨rfl, rfl, rfl⟩ := h
  case inl => exact ⟨rfl, rfl, rfl, fun _ => rfl, fun _ => rfl⟩
  case inr => exact ⟨rfl, rfl, rfl, fun _ => rfl, fun _ => rfl⟩

/-- Settles O31: each LOAD is a bus operation without operands, and `commandOnly` asks of the block nothing but that it is ready,
so no earlier WR_DTR is needed (R160). -/
theorem loadSendsItsCommandByteAlone : Obligations.LoadSendsItsCommandByteAlone := by
  intro i req cmd h
  obtain ⟨rfl, hb, hw, harg, hp⟩ := load_performed h
  obtain ⟨hdecode, hgeneric, hinit⟩ := word_and_checks hb harg
  exact ⟨hdecode, hgeneric, hinit, fun s hs => exec_of_performed_commandOnly hs hw (hp s)⟩

end Sys2Proof.Machine
end

section
/-!
SET_SPEED (R165), and how long the bus waits for it: until the next INIT (R166).
-/
namespace Sys2Proof.Machine

/-- Settles O32: SET_SPEED is no bus operation and has no operand to fault on, so every block that accepts requests performs
it, whatever its INIT_DONE; what it does is `performed_setSpeed`. -/
theorem setSpeedStoresThePreferenceOnly : Obligations.SetSpeedStoresThePreferenceOnly :=
  ⟨decode_req (.setSpeed 0), fun hz => ⟨genericChecks (.setSpeed hz), fun _ hs => exec_of_performed hs nofun rfl⟩⟩

/-- The next request is performed where it is well formed and, if it is a bus operation, INIT is done; the block then accepts
the one after it. -/
theorem step_of_encode {i : Instr} {s : State} {rest : List Request} (hp : s.pending = encode i :: rest) (hs : s.accepts)
    (hb : i.isBus = true → s.initDone = true) (hw : WellFormed i = true) :
    step s = .next (performed i { s with pending := rest }) ∧ (performed i { s with pending := rest }).accepts ∧
      (performed i { s with pending := rest }).pending = rest :=
  ⟨step_of_performed hp (decodeOfEncodeIsTheInstruction i) hs hb ((wellFormed_iff i).mp hw), performed_accepts (by exact hs) i,
    performed_pending i _⟩

/-- INIT and SET_SPEED apart, no operation changes BUS_CFG or SPEED_PREF (R23, R112). -/
theorem performed_keeps_busSettings {i : Instr} (hinit : i ≠ .init) (hspeed : ∀ h, i ≠ .setSpeed h) (s : State) :
    (performed i s).busCfg = s.busCfg ∧ (performed i s).speedPref = s.speedPref := by
  obtain ⟨-, hcfg, hpref⟩ := performed_busSettings i s
  exact ⟨not_imp_comm.mp hcfg hinit, not_imp_comm.mp hpref (hspeed _)⟩

/-- A ready block that meets well-formed requests other than INIT and SET_SPEED runs through them to a ready block with the
same BUS_CFG and SPEED_PREF, from which every longer run goes on. -/
theorem run_keeps_busSettings {is : List Instr} {rest : List Request} {s : State} (hs : s.ready)
    (his : ∀ i ∈ is, i ≠ .init ∧ (∀ h, i ≠ .setSpeed h) ∧ WellFormed i = true)
    (hp : s.pending = is.map encode ++ rest) :
    ∃ t, t.ready ∧ t.pending = rest ∧ t.busCfg = s.busCfg ∧ t.speedPref = s.speedPref ∧
      ∀ k, Host.Core.run Sys2Proof.core (is.length + k) s = Host.Core.run Sys2Proof.core k t := by
  induction is generalizing s with
  | nil => exact ⟨s, hs, hp, rfl, rfl, fun k => by rw [List.length_nil, Nat.zero_add]⟩
  | cons i is ih =>
    obtain ⟨⟨hinit, hspeed, hw⟩, his⟩ := List.forall_mem_cons.mp his
    obtain ⟨hstep, haccepts, hpending⟩ := step_of_encode hp hs.1 (fun _ => hs.2) hw
    obtain ⟨hcfg, hpref⟩ := performed_keeps_busSettings hinit hspeed { s with pending := is.map encode ++ rest }
    obtain ⟨t, ht, htp, htcfg, htpref, hrun⟩ := ih ⟨haccepts, performed_initDone (by exact hs.2) i⟩ his hpending
    refine ⟨t, ht, htp, htcfg.trans hcfg, htpref.trans hpref, fun k => ?_⟩
    rw [List.length_cons, Nat.add_right_comm, run_succ _ hstep, hrun]

/-- An INIT that waits next sets BUS_CFG to SPEED_PREF, whether or not an INIT was done before (R110, R111). -/
theorem step_of_encode_init {s : State} {hz : Word} {rest : List Request} (hp : s.pending = encode .init :: rest)
    (hs : s.accepts) (hpref : s.speedPref = hz) :
    ∃ u, step s = .next u ∧ u.busCfg = some ⟨hz, .msbFirst, .mode0⟩ :=
  ⟨_, (step_of_encode hp hs nofun rfl).1, hpref ▸ rfl⟩

/-- Settles O40: SET_SPEED stores the preference, the requests between keep it and BUS_CFG (`run_keeps_busSettings`), and INIT
applies it; a block before its first INIT takes the same two steps with nothing between. -/
theorem setSpeedWaitsForTheNextInit : Obligations.SetSpeedWaitsForTheNextInit := by
  constructor
  · intro s hz is hs his hp
    obtain ⟨hset, haccepts, hpending⟩ := step_of_encode hp hs.1 nofun rfl
    obtain ⟨t, ht, htp, hcfg, hpref, hrun⟩ :=
      run_keeps_busSettings ⟨haccepts, hs.2⟩ his hpending
    obtain ⟨u, hu, hucfg⟩ := step_of_encode_init htp ht.1 hpref
    refine ⟨t, u, (run_succ _ hset).trans (hrun 0), hcfg, hpref, ?_, hucfg⟩
    exact (run_succ _ hset).trans ((hrun 1).trans (run_succ 0 hu))
  · intro s hz hs _ hp
    obtain ⟨hset, haccepts, hpending⟩ := step_of_encode hp hs nofun rfl
    obtain ⟨u, hu, hucfg⟩ := step_of_encode_init hpending haccepts rfl
    exact ⟨_, u, hset, rfl, rfl, hu, hucfg⟩

end Sys2Proof.Machine
end

section
/-!
The operand check (R174): which operand FIELD_RANGE names, and what the record says of it.
-/
namespace Sys2Proof.Machine

theorem inField_eq_true_iff {v mask : Byte} : inField v mask = true ↔ v &&& ~~~mask = 0 := beq_iff_eq

theorem inField_eq_false_iff {v mask : Byte} : inField v mask = false ↔ v &&& ~~~mask ≠ 0 := beq_eq_false_iff_ne

/-- The check stops at an operand outside its mask once every operand before it lies in its own. -/
theorem firstOutside_of_lowest {fields : List (Byte × Byte)} {k : Nat} {v mask : Byte} (n : Nat)
    (hk : fields[k]? = some (v, mask)) (hv : inField v mask = false)
    (hlow : ∀ j u m, j < k → fields[j]? = some (u, m) → inField u m = true) :
    firstOutside n fields = some ⟨n + k, v⟩ := by
  induction fields generalizing n k with
  | nil => cases hk
  | cons p rest ih =>
    obtain ⟨u, m⟩ := p
    cases k with
    | zero =>
      cases hk
      simp [firstOutside, hv]
    | succ k =>
      have hhead : inField u m = true := hlow 0 u m k.succ_pos rfl
      have hrest := ih (n + 1) hk fun j u m hj hu => hlow (j + 1) u m (Nat.succ_lt_succ hj) hu
      rw [firstOutside, if_pos hhead, hrest, Nat.add_right_comm, Nat.add_assoc]

/-- The operand the check stops at is one of those it was given, outside its mask. -/
theorem exists_of_firstOutside_eq_some {fields : List (Byte × Byte)} {n : Nat} {d : FieldDetail}
    (h : firstOutside n fields = some d) :
    ∃ k mask, d.index = n + k ∧ fields[k]? = some (d.value, mask) ∧ inField d.value mask = false := by
  induction fields generalizing n with
  | nil => cases h
  | cons p rest ih =>
    obtain ⟨u, m⟩ := p
    cases hu : inField u m with
    | false =>
      obtain rfl : (⟨n, u⟩ : FieldDetail) = d := by simpa [firstOutside, hu] using h
      exact ⟨0, m, rfl, rfl, hu⟩
    | true =>
      obtain ⟨k, mask, hindex, hk, hv⟩ := ih (n := n + 1) (by simpa [firstOutside, hu] using h)
      exact ⟨k + 1, mask, by omega, hk, hv⟩

/-- The failing operand of an operation is its lowest with a bit outside its mask. -/
theorem failingOperand_of_lowest {i : Instr} {k : Nat} {v mask : Byte} (hk : i.maskedOperands[k]? = some (v, mask))
    (hv : v &&& ~~~mask ≠ 0) (hlow : ∀ j u m, j < k → i.maskedOperands[j]? = some (u, m) → u &&& ~~~m = 0) :
    failingOperand i = some ⟨k, v⟩ := by
  have h := firstOutside_of_lowest 0 hk (inField_eq_false_iff.mpr hv)
    fun j u m hj hu => inField_eq_true_iff.mpr (hlow j u m hj hu)
  rwa [Nat.zero_add] at h

theorem failingOperand_eq_none_iff {i : Instr} :
    failingOperand i = none ↔ ∀ p ∈ i.maskedOperands, p.1 &&& ~~~p.2 = 0 := by
  simp only [failingOperand, firstOutside_eq_none_iff, inField_eq_true_iff]

/-- As `failingOperand_of_lowest`, with the operands and their masks in a list each. -/
theorem failingOperand_of_lowest_zip {i : Instr} {operands masks : List Byte} (hi : i.maskedOperands = operands.zip masks)
    {k : Nat} {v mask : Byte} (hk : operands[k]? = some v) (hm : masks[k]? = some mask) (hv : v &&& ~~~mask ≠ 0)
    (hlow : ∀ j u m, j < k → operands[j]? = some u → masks[j]? = some m → u &&& ~~~m = 0) :
    failingOperand i = some ⟨k, v⟩ := by
  refine failingOperand_of_lowest (mask := mask) ?_ hv fun j u m hj hu => ?_
  · rw [hi]
    exact List.getElem?_zip_eq_some.mpr ⟨hk, hm⟩
  · rw [hi] at hu
    obtain ⟨hju, hjm⟩ := List.getElem?_zip_eq_some.mp hu
    exact hlow j u m hj hju hjm

/-- Settles O22: the operands with the masks of R174 are `maskedOperands`, whose lowest failing one a ready block records. -/
theorem fieldRangeNamesTheLowestFailingOperand : Obligations.FieldRangeNamesTheLowestFailingOperand :=
  ⟨fun _ _ _ _ _ _ _ _ _ hs hk hm hv hlow =>
      exec_of_failingOperand hs.1 (fun _ => hs.2) (failingOperand_of_lowest_zip rfl hk hm hv hlow),
    fun _ _ _ _ _ _ _ _ _ _ hs hk hm hv hlow =>
      exec_of_failingOperand hs.1 (fun _ => hs.2) (failingOperand_of_lowest_zip rfl hk hm hv hlow)⟩

/-- Only the mode-register writes have an operand to fault on, and its mask is the one R174 lists for it. -/
theorem mask_of_failingOperand {i : Instr} {d : FieldDetail} (h : failingOperand i = some d) :
    i.isBus = true ∧ ∃ mask, inField d.value mask = false ∧
      ((i.req = 0x088#10 ∧ [0x03#8, 0x0C, 0x30, 0x40, 0x80][d.index]? = some mask) ∨
        (i.req = 0x090#10 ∧ [0x03#8, 0x04, 0x10, 0x20, 0x40, 0x80][d.index]? = some mask)) := by
  obtain ⟨k, mask, hindex, hk, hv⟩ := exists_of_firstOutside_eq_some h
  have hmask : (i.maskedOperands.map Prod.snd)[d.index]? = some mask := by
    rw [hindex, Nat.zero_add, List.getElem?_map, hk]
    rfl
  cases i
  case wrMdr0 => exact ⟨rfl, mask, hv, .inl ⟨rfl, hmask⟩⟩
  case wrMdr1 => exact ⟨rfl, mask, hv, .inr ⟨rfl, hmask⟩⟩
  all_goals cases h

end Sys2Proof.Machine
end

section
/-!
Where the machine goes on and where it stops (R175, R179): a block goes on exactly while FAULT is none, and a word that spells no
operation is recorded and then refused.
-/
namespace Sys2Proof.Machine

theorem idle_of_fault_none {s : State} (hf : s.fault = none) : idle s = .next s := by simp only [idle, hf]

/-- Settles O16: with nothing to take a step is idle, and an idle block without a fault keeps its state. -/
theorem idleStepKeepsTheState : Obligations.IdleStepKeepsTheState :=
  fun _ hp hf => (step_of_idle hp).trans (idle_of_fault_none hf)

/-! A faulted block -/

theorem step_ne_next_of_fault {s : State} (hf : s.fault ≠ none) (t : State) : step s ≠ .next t := by
  obtain ⟨f, hf⟩ := Option.ne_none_iff_exists'.mp hf
  rw [step_of_fault hf]
  exact standing_ne_next f t

/-- Settles O19: a faulted block has no step, no operation passes its first check, and the end of a run asks for FAULT none. -/
theorem faultedBlockTakesNoStep : Obligations.FaultedBlockTakesNoStep :=
  ⟨fun s hf => ⟨step_ne_next_of_fault hf, fun i t => (genericChecks i).1 s t hf, fun ⟨_, hnone, _⟩ => hf hnone⟩,
    fun _ _ => rfl⟩

theorem standing_eq_refused {f : FaultRecord} {r : Refusal} (h : standing f = .refused r) :
    f.kind = .illegalRequest ∧ r = .illegalRequest f.req := by
  unfold standing at h
  split at h
  case h_1 hk => exact ⟨hk, (Host.Outcome.refused.inj h).symm⟩
  all_goals cases h

theorem standing_eq_fault {f : FaultRecord} {e : Fault} (h : standing f = .fault e) :
    f.kind ≠ .illegalRequest ∧ e = .standing f := by
  unfold standing at h
  split at h
  case h_1 => cases h
  all_goals
    rename_i hk
    exact ⟨by simp [hk], (Host.Outcome.fault.inj h).symm⟩

/-! A block without a fault -/

/-- The generic checks stop nothing but a faulted block. -/
theorem exists_accept_next {s : State} (hf : s.fault = none) (req : ReqWord) {k : State → Answer}
    (hk : ∃ t, k s = .next t) : ∃ t, accept req k s = .next t := by
  cases ho : s.frameOpen with
  | true => exact ⟨_, accept_of_frameOpen hf ho req k⟩
  | false => rwa [accept_of_accepts ⟨hf, ho⟩]

theorem exists_outcome_next (i : Instr) (s : State) : ∃ t, outcome i s = .next t := by
  unfold outcome
  split
  · exact ⟨_, rfl⟩
  · split <;> exact ⟨_, rfl⟩

theorem exists_exec_next {s : State} (hf : s.fault = none) (i : Instr) : ∃ t, exec i s = .next t := by
  rw [exec_eq]
  exact exists_accept_next hf i.req (exists_outcome_next i s)

theorem step_of_decode_error {s : State} {r : Request} {rest : List Request} {c : Illegal} (hp : s.pending = r :: rest)
    (hd : decode r = .error c) : step s = execIllegal r.req { s with pending := rest } := by
  rw [step_of_request hp, hd]

/-- A block with FAULT none always goes on. -/
theorem exists_step_next {s : State} (hf : s.fault = none) : ∃ t, step s = .next t := by
  cases hp : s.pending with
  | nil => exact ⟨s, idleStepKeepsTheState s hp hf⟩
  | cons r rest =>
    cases hd : decode r with
    | error c =>
      rw [step_of_decode_error hp hd]
      exact exists_accept_next (by exact hf) r.req ⟨_, rfl⟩
    | ok i =>
      rw [stepRunsTheDecodedInstruction s r rest i hp hd]
      exact exists_exec_next (by exact hf) i

/-- A step that answers no next state is the stop of a standing fault. -/
theorem exists_fault_of_step_ne_next {s : State} (h : ∀ t, step s ≠ .next t) :
    ∃ f, s.fault = some f ∧ step s = standing f := by
  cases hf : s.fault with
  | none =>
    obtain ⟨t, ht⟩ := exists_step_next hf
    exact absurd ht (h t)
  | some f => exact ⟨f, rfl, step_of_fault hf⟩

/-- Settles O20: a stop is that of a standing fault, which is a refusal for ILLEGAL_REQUEST and a fault for every other kind. -/
theorem machineStopsOnlyOnAStandingFault : Obligations.MachineStopsOnlyOnAStandingFault := by
  refine fun s => ⟨fun r h => ?_, fun e h => ?_⟩
  · obtain ⟨f, hf, hs⟩ := exists_fault_of_step_ne_next (s := s) (by simp [h])
    exact ⟨f, hf, standing_eq_refused (hs.symm.trans h)⟩
  · obtain ⟨f, hf, hs⟩ := exists_fault_of_step_ne_next (s := s) (by simp [h])
    exact ⟨f, hf, standing_eq_fault (hs.symm.trans h)⟩

/-! A word that spells no operation -/

theorem execIllegal_of_frameOpen {s : State} (hf : s.fault = none) (ho : s.frameOpen = true) (req : ReqWord) :
    execIllegal req s = .next (takeFault .requestOverlap req none s) := accept_of_frameOpen hf ho req _

theorem execIllegal_of_accepts {s : State} (hs : s.accepts) (req : ReqWord) :
    execIllegal req s = .next (takeFault .illegalRequest req none s) := accept_of_accepts hs req _

/-- On a block that accepts requests such a word is recorded, and nothing else changes (R175, R177). -/
theorem step_of_illegal {s : State} {r : Request} {rest : List Request} (hs : s.accepts) (hp : s.pending = r :: rest)
    (hd : ∃ c, decode r = .error c) :
    step s = .next { s with pending := rest, fault := some ⟨.illegalRequest, r.req, none⟩ } := by
  obtain ⟨c, hd⟩ := hd
  rw [step_of_decode_error hp hd]
  exact execIllegal_of_accepts (by exact hs) r.req

/-- Settles O17: the step takes the record, and the stop of a block whose record is ILLEGAL_REQUEST is a refusal. -/
theorem illegalWordIsRecordedAndThenRefused : Obligations.IllegalWordIsRecordedAndThenRefused :=
  fun _ _ _ hs hp hd => ⟨_, step_of_illegal hs hp hd, rfl, (step_of_fault rfl).trans rfl⟩

end Sys2Proof.Machine
end

section
/-!
Which check decides the fault (R172, R182), what a fault leaves unchanged (R177), and what its record says (R171).
-/
namespace Sys2Proof.Machine

/-! INIT_DONE (R173, R112) -/

/-- INIT and SET_SPEED have no operand to fault on. -/
theorem failingOperand_of_not_isBus {i : Instr} (hb : i.isBus = false) : failingOperand i = none := by
  cases hd : failingOperand i with
  | none => rfl
  | some d => cases hb.symm.trans (mask_of_failingOperand hd).1

theorem performed_initDone_iff (i : Instr) (s : State) :
    (performed i s).initDone = true ↔ s.initDone = true ∨ i = .init := by
  constructor
  · intro h
    by_cases hkeep : (performed i s).initDone = s.initDone
    · exact .inl (hkeep ▸ h)
    · exact .inr ((performed_busSettings i s).1 hkeep)
  · rintro (h | rfl)
    · exact performed_initDone h i
    · rfl

/-- Settles O21: a bus operation takes NOT_INITIALIZED at its check of INIT_DONE, the two others have no check to fail on a block
that accepts requests, and a fault keeps INIT_DONE. -/
theorem busOperationsNeedInit : Obligations.BusOperationsNeedInit := by
  refine ⟨fun i hb => needsInit hb, fun i s hb hs => ?_, fun i s t h => ?_, fun _ _ => rfl⟩
  · have hexec := exec_of_performed hs (by simp [hb]) (failingOperand_of_not_isBus hb)
    exact ⟨_, hexec, (performed_fault i s).trans hs.1⟩
  · obtain ⟨hf, -⟩ := exec_next h
    obtain ⟨_, _, rfl⟩ | ⟨-, -, rfl⟩ := exec_next_takeFault_or_performed h
    · simp
    · simp [performed_initDone_iff, hf]

/-! The checks in their order -/

/-- A request that meets an open frame takes REQUEST_OVERLAP, whether or not its word spells an operation (R176). -/
theorem step_of_frameOpen {s : State} {r : Request} {rest : List Request} (hp : s.pending = r :: rest)
    (hf : s.fault = none) (ho : s.frameOpen = true) :
    step s = .next { s with pending := rest, fault := some ⟨.requestOverlap, r.req, none⟩ } := by
  cases hd : decode r with
  | error c =>
    rw [step_of_decode_error hp hd]
    exact execIllegal_of_frameOpen (by exact hf) (by exact ho) r.req
  | ok i =>
    rw [stepRunsTheDecodedInstruction s r rest i hp hd, ← decodedInstructionSpellsItsWord r i hd]
    exact exec_of_frameOpen (by exact hf) (by exact ho) i

/-- Settles O18: one rule of `step` or `exec` for each check of R172, with the word of the request for that of its operation. -/
theorem firstFailingCheckDecidesTheFault : Obligations.FirstFailingCheckDecidesTheFault := by
  intro s r rest hp
  have hrun (i : Instr) (hd : decode r = .ok i) : step s = exec i { s with pending := rest } :=
    stepRunsTheDecodedInstruction s r rest i hp hd
  refine ⟨step_ne_next_of_fault, step_of_frameOpen hp, fun hf ho => step_of_illegal ⟨hf, ho⟩ hp,
    fun i hf ho hd hb hi => ?_, fun i k v mask hf ho hd hb hk hv hlow => ?_, fun i hf ho hd hb hin => ?_⟩
  · rw [hrun i hd, ← decodedInstructionSpellsItsWord r i hd]
    exact exec_of_not_initDone ⟨hf, ho⟩ hb hi
  · rw [hrun i hd, ← decodedInstructionSpellsItsWord r i hd]
    exact exec_of_failingOperand ⟨hf, ho⟩ hb (failingOperand_of_lowest hk hv hlow)
  · have hexec : exec i { s with pending := rest } = .next (performed i { s with pending := rest }) :=
      exec_of_performed ⟨hf, ho⟩ hb (failingOperand_eq_none_iff.mpr hin)
    exact ⟨_, (hrun i hd).trans hexec, hexec, (performed_fault i _).trans hf, performed_pending i _⟩

/-! What a fault leaves unchanged -/

theorem exec_next_of_faulted {i : Instr} {s t : State} (h : exec i s = .next t) (hne : t.fault ≠ none) :
    s.fault = none ∧ ∃ k d, t = { s with fault := some ⟨k, i.req, d⟩ } := by
  obtain ⟨hf, -⟩ := exec_next h
  obtain ⟨kind, detail, rfl⟩ | ⟨-, -, rfl⟩ := exec_next_takeFault_or_performed h
  · exact ⟨hf, kind, detail, rfl⟩
  · exact absurd ((performed_fault i s).trans hf) hne

/-- Settles O23: what leaves FAULT set is `takeFault`, since a performed operation keeps FAULT. -/
theorem faultedRequestChangesOnlyFault : Obligations.FaultedRequestChangesOnlyFault := by
  refine ⟨fun i s t => exec_next_of_faulted, fun s t h hne => ?_⟩
  obtain ⟨-, hf, rfl⟩ | ⟨r, rest, c, hp, -, hx⟩ | ⟨r, rest, i, hp, hd, hx⟩ := step_next h
  · exact absurd hf hne
  · obtain ⟨-, ⟨-, rfl⟩ | ⟨-, rfl⟩⟩ := execIllegal_next hx <;> exact ⟨r, rest, _, _, hp, rfl⟩
  · obtain ⟨-, k, d, rfl⟩ := exec_next_of_faulted hx hne
    exact ⟨r, rest, k, d, hp, decodedInstructionSpellsItsWord r i hd ▸ rfl⟩

/-! What a fault record says -/

theorem faultTrue_of_fault_none {s : State} (hf : s.fault = none) : s.FaultTrue :=
  fun _ h => nomatch hf.symm.trans h

theorem faultTrue_requestOverlap {s : State} (ho : s.frameOpen = true) (req : ReqWord) :
    (takeFault .requestOverlap req none s).FaultTrue := by
  rintro _ ⟨⟩
  exact ⟨rfl, ho⟩

theorem faultTrue_illegalRequest {r : Request} {c : Illegal} (hd : decode r = .error c) (s : State) :
    (takeFault .illegalRequest r.req none s).FaultTrue := by
  rintro _ ⟨⟩
  refine ⟨rfl, fun i hi => ?_⟩
  obtain ⟨j, hj⟩ := (exists_decode_ok_iff r.req r.arg).mpr ⟨i, hi⟩
  cases hd.symm.trans hj

theorem faultTrue_notInitialized {i : Instr} {s : State} (hb : i.isBus = true) (hi : s.initDone = false) :
    (takeFault .notInitialized i.req none s).FaultTrue := by
  rintro _ ⟨⟩
  exact ⟨rfl, hi, i, hb, rfl⟩

theorem faultTrue_fieldRange {i : Instr} {s : State} {d : FieldDetail} (hb : i.isBus = true → s.initDone = true)
    (hd : failingOperand i = some d) : (takeFault .fieldRange i.req (some d) s).FaultTrue := by
  rintro _ ⟨⟩
  obtain ⟨hbus, mask, hv, hmask⟩ := mask_of_failingOperand hd
  exact ⟨hb hbus, d.index, d.value, mask, rfl, hv, hmask⟩

/-- Settles O49: a step leaves the record of the check that failed, which is true by what the check found, or no new record. -/
theorem stepLeavesATrueFaultRecord : Obligations.StepLeavesATrueFaultRecord := by
  intro s t hs h
  obtain ⟨-, -, rfl⟩ | ⟨r, rest, c, -, hd, hx⟩ | ⟨r, rest, i, -, -, hx⟩ := step_next h
  · exact hs
  · obtain ⟨-, ⟨ho, rfl⟩ | ⟨-, rfl⟩⟩ := execIllegal_next hx
    · exact faultTrue_requestOverlap ho r.req
    · exact faultTrue_illegalRequest hd _
  · obtain ⟨hf, ⟨ho, rfl⟩ | ⟨-, hb, hi, rfl⟩ | ⟨-, hb, d, hd, rfl⟩ | ⟨-, -, -, rfl⟩⟩ := exec_next hx
    · exact faultTrue_requestOverlap ho i.req
    · exact faultTrue_notInitialized hb hi
    · exact faultTrue_fieldRange hb hd
    · exact faultTrue_of_fault_none ((performed_fault i _).trans hf)

end Sys2Proof.Machine
end

section
/-!
The block right after construction (R200, R201, Table 70-1).
-/
namespace Sys2Proof.Machine

/-- Settles O1: the fields that `State.construct` writes, and `State.reset` by its definition. -/
theorem constructionLeavesTheResetState : Obligations.ConstructionLeavesTheResetState :=
  fun _ _ => ⟨rfl, rfl, rfl, rfl, rfl, rfl, rfl, rfl⟩

/-- Settles O46: of an empty TRACE the monitor knows what Table 70-1 states, and no INIT has driven the line. -/
theorem constructionIsConsistent : Obligations.ConstructionIsConsistent :=
  fun _ _ => ⟨rfl, rfl, rfl, rfl⟩

/-- Settles O48: construction leaves FAULT none, so there is no record. -/
theorem constructionHasATrueFaultRecord : Obligations.ConstructionHasATrueFaultRecord :=
  fun _ _ => faultTrue_of_fault_none rfl

end Sys2Proof.Machine
end

section
/-!
The clock periods of what an operation emits (R213): eight for each byte exchanged, and none for any other event.
-/
namespace Sys2Proof.Machine

theorem newEvents_of_append {s t : State} {es : List Event} (h : t.trace = s.trace ++ es) : newEvents s t = es := by
  rw [newEvents, h, List.drop_left]

/-- An exchange takes the eight bits of its byte (R45, R52). -/
theorem clockPeriods_of_exchanges {es : List Event} (h : ∀ e ∈ es, ∃ out inn, e = .xchg out inn) :
    clockPeriods es = 8 * es.length := by
  induction es with
  | nil => rfl
  | cons e es ih =>
    obtain ⟨⟨out, inn, rfl⟩, hes⟩ := List.forall_mem_cons.mp h
    rw [clockPeriods, ih hes, List.length_cons, Nat.mul_succ, Nat.add_comm]
    rfl

theorem clockPeriods_frameEvents (s : State) (cmd : Byte) (tx : List Byte) :
    clockPeriods (frameEvents s cmd tx) = 8 * (1 + tx.length) := by
  rw [frameEvents_eq, clockPeriods_append, clockPeriods_append,
    clockPeriods_of_exchanges fun _ => eq_xchg_of_mem_exchangesOf, exchangesOf_length]
  simp [clockPeriods]

/-- Settles O39: with FAULT none the operation was performed; a bus operation adds its frame, INIT three events that exchange
no byte, SET_SPEED no event. -/
theorem frameTakesEightClockPeriodsPerByte : Obligations.FrameTakesEightClockPeriodsPerByte := by
  intro i s t h hf
  obtain ⟨_, _, rfl⟩ | ⟨-, -, rfl⟩ := exec_next_takeFault_or_performed h
  · cases hf
  · obtain hb | rfl | ⟨hz, rfl⟩ := isBus_or_init_or_setSpeed i
    · have hframe : (performed i s).trace = s.trace ++ frameEvents s (commandOf i) (sentBytes s.w i) := by
        rw [performed_of_isBus hb]
      refine ⟨fun _ => ⟨_, payloadCount_commandOf hb s.w, ?_⟩, fun hb' => nomatch hb.symm.trans hb'⟩
      rw [newEvents_of_append hframe, clockPeriods_frameEvents]
    · have hinit : (performed .init s).trace =
          s.trace ++ [.cfgLine s.csLine, .des s.csLine, .cfg s.speedPref .msbFirst .mode0] := by rw [performed_init]
      exact ⟨nofun, fun _ => by rw [newEvents_of_append hinit]; rfl⟩
    · have hspeed : (performed (.setSpeed hz) s).trace = s.trace ++ [] := (List.append_nil _).symm
      exact ⟨nofun, fun _ => by rw [newEvents_of_append hspeed]; rfl⟩

end Sys2Proof.Machine
end

section
/-!
Runs through well-formed requests (R215): from a ready block, and from construction in the boot order of R203.
-/
namespace Sys2Proof.Machine

theorem goodRequest_iff {r : Request} : goodRequest r = true ↔ ∃ i, decode r = .ok i ∧ WellFormed i = true := by
  unfold goodRequest
  cases decode r <;> simp

/-- A ready block performs the well-formed request that waits next, answers it once, and is ready for the one after it. -/
theorem step_of_goodRequest {r : Request} {rest : List Request} {s : State} (hg : goodRequest r = true)
    (hp : s.pending = r :: rest) (hs : s.ready) :
    ∃ t, step s = .next t ∧ t.ready ∧ t.pending = rest ∧ t.responses.length = s.responses.length + 1 := by
  obtain ⟨i, hd, hw⟩ := goodRequest_iff.mp hg
  exact ⟨_, step_of_performed hp hd hs.1 (fun _ => hs.2) ((wellFormed_iff i).mp hw),
    ⟨performed_accepts (by exact hs.1) i, performed_initDone (by exact hs.2) i⟩,
    performed_pending i _, performed_responses_length i _⟩

/-- A consistent block that accepts requests and has none waiting is at the end of R215. -/
theorem successfulEnd_of_consistent {s : State} (hc : s.Consistent) (hs : s.accepts) (hp : s.pending = []) :
    s.SuccessfulEnd := by
  obtain ⟨-, -, hcs, -⟩ := hc
  exact ⟨hp, hs.1, fun hi => by rw [hcs, if_pos hi]⟩

/-- Settles O50: by induction on the queue, since each well-formed request leaves the block ready for the next and every step
keeps the history consistent. -/
theorem wellFormedRequestsRunToASuccessfulEnd : Obligations.WellFormedRequestsRunToASuccessfulEnd := by
  intro s hc hs hgood
  induction hp : s.pending generalizing s with
  | nil => exact ⟨s, rfl, successfulEnd_of_consistent hc hs.1 hp, hc, rfl⟩
  | cons r rest ih =>
    rw [hp] at hgood
    obtain ⟨hr, hrest⟩ := List.forall_mem_cons.mp hgood
    obtain ⟨t, hstep, ht, htp, htl⟩ := step_of_goodRequest hr hp hs
    obtain ⟨u, hrun, hend, hcu, hul⟩ := ih t (stepKeepsTheHistoryConsistent s t hc hstep) ht (htp ▸ hrest) htp
    refine ⟨u, (run_succ _ hstep).trans hrun, hend, hcu, ?_⟩
    rw [hul, htl, List.length_cons, Nat.add_right_comm, Nat.add_assoc]

/-- A consistent block that accepts requests, before or after a first INIT, is made ready by SET_SPEED and INIT, and every
longer run goes on from there. -/
theorem run_setSpeed_init {s : State} {speed : Word} {rest : List Request} (hc : s.Consistent) (hs : s.accepts)
    (hp : s.pending = encode (.setSpeed speed) :: encode .init :: rest) :
    ∃ t, t.Consistent ∧ t.ready ∧ t.pending = rest ∧ t.responses.length = s.responses.length + 2 ∧
      ∀ k, Host.Core.run Sys2Proof.core (k + 2) s = Host.Core.run Sys2Proof.core k t := by
  obtain ⟨hset, hsa, hsp⟩ := step_of_encode hp hs nofun rfl
  obtain ⟨hinit, hia, hip⟩ := step_of_encode hsp hsa nofun rfl
  have hcs := stepKeepsTheHistoryConsistent _ _ hc hset
  refine ⟨_, stepKeepsTheHistoryConsistent _ _ hcs hinit, ⟨hia, rfl⟩, hip, ?_, fun k => ?_⟩
  · rw [performed_responses_length, performed_responses_length]
  · rw [run_succ _ hset, run_succ _ hinit]

/-- Settles O51: construction is consistent and accepts requests, SET_SPEED and INIT make the block ready, and the rest is a run
of O50. -/
theorem bootOrderRunsToASuccessfulEnd : Obligations.BootOrderRunsToASuccessfulEnd := by
  intro line hz speed rs hgood
  obtain ⟨t, hc, ht, htp, htl, hboot⟩ := run_setSpeed_init (speed := speed) (rest := rs)
    (s := { State.construct line hz with pending := encode (.setSpeed speed) :: encode .init :: rs })
    (by exact constructionIsConsistent line hz) ⟨rfl, rfl⟩ rfl
  obtain ⟨u, hrun, hend, -, hul⟩ := wellFormedRequestsRunToASuccessfulEnd t hc ht (htp ▸ hgood)
  rw [htp] at hrun hul
  exact ⟨u, (hboot _).trans hrun, hend, by rw [hul, htl]; exact Nat.add_comm ..⟩

end Sys2Proof.Machine
end
